-- ==== Sys2Proof/Word.lean ====
section
/-! DEFINITION. The bit-vector types of the gb-enhanced PPU: what the spec treats as a register, an address or a colour.
Widths are fixed, each one named by the rule that gives it. -/

namespace Sys2Proof

/-- "values 0–255", the unit of every access (R21, R81). -/
abbrev Byte := BitVec 8

/-- A bus address, also an address of the external memory interface (R80). -/
abbrev BusAddr := BitVec 16

/-- The 32-bit trace word that spells one operation (R120). -/
abbrev TraceWord := BitVec 32

/-- An offset inside one 8 KiB VRAM bank (R46, R80). -/
abbrev VramOffset := BitVec 13

/-- A VRAM bank number, or a tile bank number (R46, R48). -/
abbrev Bank := BitVec 1

/-- The raw index of one pixel, 0..3, before any palette (R126); also a shade, 0..3 (R50). -/
abbrev RawIndex := BitVec 2

/-- A 15-bit raw colour, 5 bits a channel (R51, R132). -/
abbrev Color15 := BitVec 15

/-- A display colour, 24 bits `0xRRGGBB` (R12). -/
abbrev Color := BitVec 24

end Sys2Proof
end

