-- ==== Sys2Proof/Config.lean ====
section
/-! DEFINITION. What is fixed for one instance of the block: the timing and geometry constants (R9, R10), the
parameters with their defaults (R8, R11, R12: the variant, the address map, the colours), and the two free values
the spec leaves open (R22, R93), which have no body. -/

namespace Sys2Proof

namespace Config

/-- `LINE_CYCLES`: cycles per scanline (R9). -/
abbrev lineCycles : Nat := 456
/-- `OAM_END`: first cycle of Pixel-transfer (R9). -/
abbrev oamEnd : Nat := 80
/-- `XFER_END`: first cycle of HBlank (R9). -/
abbrev xferEnd : Nat := 252
/-- `VISIBLE_LINES`: scanlines 0 to 143 are visible (R9). -/
abbrev visibleLines : Nat := 144
/-- `TOTAL_LINES`: the scanline index runs 0 to 153 (R9). -/
abbrev totalLines : Nat := 154
/-- `ROW_WIDTH`: pixels the compositor produces per scanline (R10). -/
abbrev rowWidth : Nat := 256
/-- `VISIBLE_WIDTH`: width of the displayed part of a row, columns 0..159 (R10, R341). -/
abbrev visibleWidth : Nat := 160
/-- `N_SPRITES`: entries of the sprite attribute table (R10). -/
abbrev nSprites : Nat := 40
/-- `MAX_LINE_SPRITES`: sprites selected per scanline (R10). -/
abbrev maxLineSprites : Nat := 10
/-- `DMA_BLOCK`: bytes per colour-DMA block (R10). -/
abbrev dmaBlock : Nat := 16
/-- Size of a tile bank (R84). -/
abbrev tileBankSize : Nat := 0x1000
/-- Size of a tile map (R84). -/
abbrev mapSize : Nat := 0x0400
/-- Size of the VRAM window and of one VRAM bank (R84). -/
abbrev vramSize : Nat := 0x2000
/-- Size of the OAM window (R84). -/
abbrev oamSize : Nat := 0xA0

/-- `UNSPEC` (R22): the bits of the `n`-th free draw. It has no body, so nothing can be proved of a value of it. -/
opaque unspec : Nat → Byte

/-- `MemRead` (R93): what the external memory interface answers to the `n`-th byte the block asks of it, at an address
the environment has declared nothing about. It has no body. -/
opaque memRead : Nat → BusAddr → Byte

end Config

/-- The 21 memory-mapped registers (R23 to R39, R85). -/
inductive Reg where
  | lcdc | stat | scy | scx | ly | lyc | bgp | obp0 | obp1 | wy | wx
  | vbk | hdma1 | hdma2 | hdma3 | hdma4 | hdma5 | bcps | bcpd | ocps | ocpd
  deriving DecidableEq, Repr

/-- Every register, in the order of R85's table. -/
def Reg.all : List Reg :=
  [.lcdc, .stat, .scy, .scx, .ly, .lyc, .bgp, .obp0, .obp1, .wy, .wx,
   .vbk, .hdma1, .hdma2, .hdma3, .hdma4, .hdma5, .bcps, .bcpd, .ocps, .ocpd]

/-- The address parameters with the defaults of R84 and R85: the bus space, and the four places inside a VRAM bank (R11: "a model should take the address map
as a configuration record with these defaults"). -/
structure AddrMap where
  vramBase  : BusAddr := 0x8000#16
  /-- `TILE1_OFF`: tile bank "1" inside a VRAM bank. -/
  tile1Off  : VramOffset := 0x0000#13
  /-- `TILE0_OFF`: tile bank "0" inside a VRAM bank. -/
  tile0Off  : VramOffset := 0x0800#13
  /-- `MAP0_OFF`: tile map 0 inside a VRAM bank. -/
  map0Off   : VramOffset := 0x1800#13
  /-- `MAP1_OFF`: tile map 1 inside a VRAM bank. -/
  map1Off   : VramOffset := 0x1C00#13
  oamBase   : BusAddr := 0xFE00#16
  addrLcdc  : BusAddr := 0xFF40#16
  addrStat  : BusAddr := 0xFF41#16
  addrScy   : BusAddr := 0xFF42#16
  addrScx   : BusAddr := 0xFF43#16
  addrLy    : BusAddr := 0xFF44#16
  addrLyc   : BusAddr := 0xFF45#16
  addrBgp   : BusAddr := 0xFF47#16
  addrObp0  : BusAddr := 0xFF48#16
  addrObp1  : BusAddr := 0xFF49#16
  addrWy    : BusAddr := 0xFF4A#16
  addrWx    : BusAddr := 0xFF4B#16
  addrVbk   : BusAddr := 0xFF4F#16
  addrHdma1 : BusAddr := 0xFF51#16
  addrHdma2 : BusAddr := 0xFF52#16
  addrHdma3 : BusAddr := 0xFF53#16
  addrHdma4 : BusAddr := 0xFF54#16
  addrHdma5 : BusAddr := 0xFF55#16
  addrBcps  : BusAddr := 0xFF68#16
  addrBcpd  : BusAddr := 0xFF69#16
  addrOcps  : BusAddr := 0xFF6A#16
  addrOcpd  : BusAddr := 0xFF6B#16
  /-- The interpreter's interrupt-pending register: not a register of the block (R58, R85). -/
  addrIf    : BusAddr := 0xFF0F#16
  deriving DecidableEq, Repr

/-- The default address map (R84, R85). -/
def AddrMap.default : AddrMap := {}

/-- The address parameter of a register (R85). -/
def AddrMap.regAddr (m : AddrMap) : Reg → BusAddr
  | .lcdc => m.addrLcdc | .stat => m.addrStat | .scy => m.addrScy | .scx => m.addrScx
  | .ly => m.addrLy | .lyc => m.addrLyc | .bgp => m.addrBgp | .obp0 => m.addrObp0
  | .obp1 => m.addrObp1 | .wy => m.addrWy | .wx => m.addrWx | .vbk => m.addrVbk
  | .hdma1 => m.addrHdma1 | .hdma2 => m.addrHdma2 | .hdma3 => m.addrHdma3
  | .hdma4 => m.addrHdma4 | .hdma5 => m.addrHdma5 | .bcps => m.addrBcps
  | .bcpd => m.addrBcpd | .ocps => m.addrOcps | .ocpd => m.addrOcpd

/-- The parameters of one instance (R8, R11, R12). No operation changes them. -/
structure Params where
  /-- `COLOR_MODE` (R8): `true` is the colour variant, `false` the monochrome one. -/
  colorMode  : Bool
  /-- The address map (R11). -/
  map        : AddrMap
  /-- `MONO_SHADE[0..3]`, index 0 the lightest (R12). -/
  monoShade  : Vector Color 4
  /-- `BLANK_COLOR`, the colour of a background pixel when the layer is disabled (R12). -/
  blankColor : Color
  deriving DecidableEq, Repr

/-- The parameters the reset state carries: the colour variant (DESIGN CHOICE, notes/assumptions/2.md) with the default
address map and the default colours of R12. -/
def Params.default : Params where
  colorMode := true
  map := .default
  monoShade := #v[0xFFFFFF#24, 0xAAAAAA#24, 0x555555#24, 0x000000#24]
  blankColor := 0xFFFFFF#24

end Sys2Proof
end

