-- ==== Sys2Proof/Syntax.lean ====
section
/-! DEFINITION. The operations of the block (R6, R138), one constructor per row of spec/opcode_table.json: what arrives at
its interfaces, with the raw bits already taken apart. -/

namespace Sys2Proof

/-- The 50 operations. A `WR` carries the byte written; a `WR` or `RD` of a memory window carries the place inside the
window; an unmapped access carries its bus address (R121, R122, R138). -/
inductive Instr where
  /-- `RESET` (R123, R410). -/
  | reset
  /-- `STEP n` (R122, R160). The count is an integer here, so that the contract violation of R372 can be said; a trace
  word spells only 0..2^30-1. -/
  | step (n : Int)
  | wrLcdc (v : Byte)  | rdLcdc
  | wrStat (v : Byte)  | rdStat
  | wrScy (v : Byte)   | rdScy
  | wrScx (v : Byte)   | rdScx
  | wrLy (v : Byte)    | rdLy
  | wrLyc (v : Byte)   | rdLyc
  | wrBgp (v : Byte)   | rdBgp
  | wrObp0 (v : Byte)  | rdObp0
  | wrObp1 (v : Byte)  | rdObp1
  | wrWy (v : Byte)    | rdWy
  | wrWx (v : Byte)    | rdWx
  | wrVbk (v : Byte)   | rdVbk
  | wrHdma1 (v : Byte) | rdHdma1
  | wrHdma2 (v : Byte) | rdHdma2
  | wrHdma3 (v : Byte) | rdHdma3
  | wrHdma4 (v : Byte) | rdHdma4
  | wrHdma5 (v : Byte) | rdHdma5
  | wrBcps (v : Byte)  | rdBcps
  | wrBcpd (v : Byte)  | rdBcpd
  | wrOcps (v : Byte)  | rdOcps
  | wrOcpd (v : Byte)  | rdOcpd
  /-- `WR` into the VRAM window, at this offset inside it (R264). -/
  | wrVram (off : VramOffset) (v : Byte)
  /-- `RD` of the VRAM window (R265). -/
  | rdVram (off : VramOffset)
  /-- `WR` into the OAM window, at this byte of the table (R303). -/
  | wrOam (i : Fin 160) (v : Byte)
  /-- `RD` of the OAM window (R304). -/
  | rdOam (i : Fin 160)
  /-- `WR` of an address the block does not answer (R243). -/
  | wrUnmapped (a : BusAddr) (v : Byte)
  /-- `RD` of an address the block does not answer (R244). -/
  | rdUnmapped (a : BusAddr)
  deriving DecidableEq, Repr

end Sys2Proof
end

