-- ==== Sys2Proof/WellFormed.lean ====
section
/-! DEFINITION. Which operations a trace word can spell, and which address maps the spec admits. The bounds of the window
places are in their types (`VramOffset`, `Fin 160`); what is left to check is the count of `STEP` and that an unmapped
address really is one. -/

namespace Sys2Proof

/-- The address lies in the VRAM window (R84, R86). -/
def AddrMap.inVram (m : AddrMap) (a : BusAddr) : Bool :=
  m.vramBase.toNat ≤ a.toNat && a.toNat < m.vramBase.toNat + Config.vramSize

/-- The address lies in the OAM window (R84, R86). -/
def AddrMap.inOam (m : AddrMap) (a : BusAddr) : Bool :=
  m.oamBase.toNat ≤ a.toNat && a.toNat < m.oamBase.toNat + Config.oamSize

/-- The address is some register's (R85). -/
def AddrMap.isReg (m : AddrMap) (a : BusAddr) : Bool :=
  Reg.all.any fun r => m.regAddr r == a

/-- The block answers this address in the colour variant: a window or a register (R86). -/
def AddrMap.answers (m : AddrMap) (a : BusAddr) : Bool :=
  m.inVram a || m.inOam a || m.isReg a

/-- What R84 and R85 ask of an address map: the two windows lie inside the 16-bit space and apart from each other, and
all the address parameters are pairwise distinct and outside both windows. -/
def AddrMap.wf (m : AddrMap) : Bool :=
  let singles := m.addrIf :: Reg.all.map m.regAddr
  m.vramBase.toNat + Config.vramSize ≤ 0x10000 &&
  m.oamBase.toNat + Config.oamSize ≤ 0x10000 &&
  (m.vramBase.toNat + Config.vramSize ≤ m.oamBase.toNat || m.oamBase.toNat + Config.oamSize ≤ m.vramBase.toNat) &&
  decide singles.Nodup &&
  singles.all fun a => !m.inVram a && !m.inOam a

/-- What R84 and R82 (a) ask of the four places inside a VRAM bank: the tile banks and the tile maps lie inside the bank whole,
and a tile bank starts at an even offset, so that a low plane does (notes/assumptions/7.md). -/
def AddrMap.layoutWf (m : AddrMap) : Bool :=
  [m.tile1Off, m.tile0Off].all (fun a => a.toNat + Config.tileBankSize ≤ Config.vramSize && a.toNat % 2 == 0) &&
  [m.map0Off, m.map1Off].all fun a => a.toNat + Config.mapSize ≤ Config.vramSize

/-- The operation is one that a trace word spells under the address map: the count of a `STEP` fits its 30 bits (R122),
and an unmapped access names an address the block does not answer (R86). -/
def Instr.wf (m : AddrMap) : Instr → Bool
  | .step n => 0 ≤ n && n < 2 ^ 30
  | .wrUnmapped a _ => !m.answers a
  | .rdUnmapped a => !m.answers a
  | .reset
  | .wrLcdc _ | .rdLcdc | .wrStat _ | .rdStat | .wrScy _ | .rdScy | .wrScx _ | .rdScx
  | .wrLy _ | .rdLy | .wrLyc _ | .rdLyc | .wrBgp _ | .rdBgp | .wrObp0 _ | .rdObp0
  | .wrObp1 _ | .rdObp1 | .wrWy _ | .rdWy | .wrWx _ | .rdWx | .wrVbk _ | .rdVbk
  | .wrHdma1 _ | .rdHdma1 | .wrHdma2 _ | .rdHdma2 | .wrHdma3 _ | .rdHdma3
  | .wrHdma4 _ | .rdHdma4 | .wrHdma5 _ | .rdHdma5 | .wrBcps _ | .rdBcps
  | .wrBcpd _ | .rdBcpd | .wrOcps _ | .rdOcps | .wrOcpd _ | .rdOcpd
  | .wrVram _ _ | .rdVram _ | .wrOam _ _ | .rdOam _ => true

end Sys2Proof
end

