-- ==== Sys2Proof/Decode.lean ====
section
/-! DEFINITION. Trace words to operations and back (R120 to R124, R140). The decoder is total: a word whose must-be-zero
bits are not zero spells no operation and gives `none`. -/

namespace Sys2Proof

/-- What a bus address selects (R86). -/
inductive BusTarget where
  | vram (off : VramOffset)
  | oam (i : Fin 160)
  | reg (r : Reg)
  | unmapped
  deriving DecidableEq, Repr

/-- The register whose address parameter equals the address, if there is one (R86). -/
def AddrMap.findReg (m : AddrMap) (a : BusAddr) : Option Reg :=
  Reg.all.find? fun r => m.regAddr r == a

/-- Address decode (R86): the VRAM window, the OAM window, a register, else unmapped. -/
def AddrMap.select (m : AddrMap) (a : BusAddr) : BusTarget :=
  if m.vramBase.toNat ≤ a.toNat ∧ a.toNat < m.vramBase.toNat + Config.vramSize then
    .vram (BitVec.ofNat 13 (a.toNat - m.vramBase.toNat))
  else if h : m.oamBase.toNat ≤ a.toNat ∧ a.toNat < m.oamBase.toNat + Config.oamSize then
    .oam ⟨a.toNat - m.oamBase.toNat, by have := h.2; simp only [Config.oamSize] at this; omega⟩
  else
    match m.findReg a with
    | some r => .reg r
    | none => .unmapped

/-- The `WR` of a register (R138). -/
def Reg.write (v : Byte) : Reg → Instr
  | .lcdc => .wrLcdc v | .stat => .wrStat v | .scy => .wrScy v | .scx => .wrScx v
  | .ly => .wrLy v | .lyc => .wrLyc v | .bgp => .wrBgp v | .obp0 => .wrObp0 v
  | .obp1 => .wrObp1 v | .wy => .wrWy v | .wx => .wrWx v | .vbk => .wrVbk v
  | .hdma1 => .wrHdma1 v | .hdma2 => .wrHdma2 v | .hdma3 => .wrHdma3 v | .hdma4 => .wrHdma4 v
  | .hdma5 => .wrHdma5 v | .bcps => .wrBcps v | .bcpd => .wrBcpd v | .ocps => .wrOcps v
  | .ocpd => .wrOcpd v

/-- The `RD` of a register (R138). -/
def Reg.read : Reg → Instr
  | .lcdc => .rdLcdc | .stat => .rdStat | .scy => .rdScy | .scx => .rdScx
  | .ly => .rdLy | .lyc => .rdLyc | .bgp => .rdBgp | .obp0 => .rdObp0
  | .obp1 => .rdObp1 | .wy => .rdWy | .wx => .rdWx | .vbk => .rdVbk
  | .hdma1 => .rdHdma1 | .hdma2 => .rdHdma2 | .hdma3 => .rdHdma3 | .hdma4 => .rdHdma4
  | .hdma5 => .rdHdma5 | .bcps => .rdBcps | .bcpd => .rdBcpd | .ocps => .rdOcps
  | .ocpd => .rdOcpd

/-- A bus write as an operation (R124). -/
def decodeWrite (m : AddrMap) (a : BusAddr) (v : Byte) : Instr :=
  match m.select a with
  | .vram off => .wrVram off v
  | .oam i => .wrOam i v
  | .reg r => r.write v
  | .unmapped => .wrUnmapped a v

/-- A bus read as an operation (R124). -/
def decodeRead (m : AddrMap) (a : BusAddr) : Instr :=
  match m.select a with
  | .vram off => .rdVram off
  | .oam i => .rdOam i
  | .reg r => r.read
  | .unmapped => .rdUnmapped a

/-- The `kind` field, bits 31:30 (R120). -/
def TraceWord.kind (w : TraceWord) : BitVec 2 := w.extractLsb' 30 2
/-- Bits 29:0, the count of `STEP` (R122) and the zero field of `RESET` (R123). -/
def TraceWord.low30 (w : TraceWord) : BitVec 30 := w.extractLsb' 0 30
/-- Bits 29:24 of format `BUS`, which must be 0 (R121). -/
def TraceWord.busZero (w : TraceWord) : BitVec 6 := w.extractLsb' 24 6
/-- The `addr` field of format `BUS`, bits 23:8 (R121). -/
def TraceWord.addr (w : TraceWord) : BusAddr := w.extractLsb' 8 16
/-- The `data` field of format `BUS`, bits 7:0 (R121). -/
def TraceWord.data (w : TraceWord) : Byte := w.extractLsb' 0 8

/-- The operation a trace word spells, or `none` for a word that spells none (R120 to R124, R140). -/
def decode (m : AddrMap) (w : TraceWord) : Option Instr :=
  if TraceWord.kind w = 0b11#2 then
    if TraceWord.low30 w = 0#30 then some .reset else none
  else if TraceWord.kind w = 0b10#2 then
    some (.step ((TraceWord.low30 w).toNat : Int))
  else if TraceWord.kind w = 0b01#2 then
    if TraceWord.busZero w = 0#6 then some (decodeWrite m (TraceWord.addr w) (TraceWord.data w)) else none
  else
    if TraceWord.busZero w = 0#6 ∧ TraceWord.data w = 0#8 then some (decodeRead m (TraceWord.addr w)) else none

/-! ## The encoder -/

/-- A word of format `BUS` with kind `WR` (R121). -/
def busWrite (a : BusAddr) (v : Byte) : TraceWord := 0b01#2 ++ 0#6 ++ a ++ v
/-- A word of format `BUS` with kind `RD` (R121). -/
def busRead (a : BusAddr) : TraceWord := 0b00#2 ++ 0#6 ++ a ++ 0#8
/-- A word of format `STEP` (R122). -/
def stepWord (n : BitVec 30) : TraceWord := 0b10#2 ++ n
/-- The word of format `RESET` (R123). -/
def resetWord : TraceWord := 0b11#2 ++ 0#30

/-- The trace word of a well-formed operation (R121, R122, R123). -/
def encode (m : AddrMap) : Instr → TraceWord
  | .reset => resetWord
  | .step n => stepWord (BitVec.ofNat 30 n.toNat)
  | .wrLcdc v => busWrite m.addrLcdc v
  | .rdLcdc => busRead m.addrLcdc
  | .wrStat v => busWrite m.addrStat v
  | .rdStat => busRead m.addrStat
  | .wrScy v => busWrite m.addrScy v
  | .rdScy => busRead m.addrScy
  | .wrScx v => busWrite m.addrScx v
  | .rdScx => busRead m.addrScx
  | .wrLy v => busWrite m.addrLy v
  | .rdLy => busRead m.addrLy
  | .wrLyc v => busWrite m.addrLyc v
  | .rdLyc => busRead m.addrLyc
  | .wrBgp v => busWrite m.addrBgp v
  | .rdBgp => busRead m.addrBgp
  | .wrObp0 v => busWrite m.addrObp0 v
  | .rdObp0 => busRead m.addrObp0
  | .wrObp1 v => busWrite m.addrObp1 v
  | .rdObp1 => busRead m.addrObp1
  | .wrWy v => busWrite m.addrWy v
  | .rdWy => busRead m.addrWy
  | .wrWx v => busWrite m.addrWx v
  | .rdWx => busRead m.addrWx
  | .wrVbk v => busWrite m.addrVbk v
  | .rdVbk => busRead m.addrVbk
  | .wrHdma1 v => busWrite m.addrHdma1 v
  | .rdHdma1 => busRead m.addrHdma1
  | .wrHdma2 v => busWrite m.addrHdma2 v
  | .rdHdma2 => busRead m.addrHdma2
  | .wrHdma3 v => busWrite m.addrHdma3 v
  | .rdHdma3 => busRead m.addrHdma3
  | .wrHdma4 v => busWrite m.addrHdma4 v
  | .rdHdma4 => busRead m.addrHdma4
  | .wrHdma5 v => busWrite m.addrHdma5 v
  | .rdHdma5 => busRead m.addrHdma5
  | .wrBcps v => busWrite m.addrBcps v
  | .rdBcps => busRead m.addrBcps
  | .wrBcpd v => busWrite m.addrBcpd v
  | .rdBcpd => busRead m.addrBcpd
  | .wrOcps v => busWrite m.addrOcps v
  | .rdOcps => busRead m.addrOcps
  | .wrOcpd v => busWrite m.addrOcpd v
  | .rdOcpd => busRead m.addrOcpd
  | .wrVram off v => busWrite (BitVec.ofNat 16 (m.vramBase.toNat + off.toNat)) v
  | .rdVram off => busRead (BitVec.ofNat 16 (m.vramBase.toNat + off.toNat))
  | .wrOam i v => busWrite (BitVec.ofNat 16 (m.oamBase.toNat + i.val)) v
  | .rdOam i => busRead (BitVec.ofNat 16 (m.oamBase.toNat + i.val))
  | .wrUnmapped a v => busWrite a v
  | .rdUnmapped a => busRead a

/-! ## The word as the host numbers it -/

/-- The trace word with the bits `w` below bit `nbits` and zeros above; `none` when a bit above bit 31 is set, since
every trace word is 32 bits (R124). -/
def tableWord (nbits w : Nat) : Option TraceWord :=
  if w % 2 ^ nbits < 2 ^ 32 then some (BitVec.ofNat 32 (w % 2 ^ nbits)) else none

/-- The operation the decoder reads from the word, under the default address map, from whose addresses the operation
table is computed (R138). -/
def decodeTableWord (nbits w : Nat) : Option Instr :=
  match tableWord nbits w with
  | some word => decode .default word
  | none => none

end Sys2Proof
end

