-- ==== Sys2Proof/Machine/State.lean ====
section
/-! DEFINITION. The state of the block as plain data (R20), its reset value (R60), the reasons an operation can stop, and
the model's own fields: the parameters of the instance, the operations still to come, the output trace, the byte last
answered on the bus, and the counters of the free draws. -/

namespace Sys2Proof.Machine

/-- The four modes of the sequencer (R41). -/
inductive Mode where
  | hblank | vblank | oam | xfer
  deriving DecidableEq, Repr

/-- The two interrupt requests (R374). -/
inductive Irq where
  | vblank | stat
  deriving DecidableEq, Repr

/-- The eight raw indices of one tile row, leftmost first (R48, R260). -/
abbrev PixelRow := Vector RawIndex 8

/-- One row of 256 display colours (R55). -/
abbrev ColorRow := Vector Color 256

/-- The frame buffer: 144 rows (R56). -/
abbrev Frame := Vector ColorRow 144

/-- What the block puts out beside its flags: a `RaiseIrq` event (R375) or a `Present` event with a copy of the frame (R176). -/
inductive Event where
  | raise (k : Irq)
  | present (f : Frame)
  deriving DecidableEq, Repr

/-- A sparse byte memory: address and byte pairs in the canonical form of `Memory.wf` (Machine/Ops.lean). -/
abbrev Memory := List Host.Cell

/-- The tile cache (R48) as a sparse store of rows, keyed by VRAM bank, tile bank, stored tile and row
(`tileKey`, Machine/Ops.lean); a row that is not listed is all raw index 0. -/
abbrev TileCache := List (Nat × PixelRow)

/-- One sprite descriptor (R53). -/
structure Sprite where
  /-- Screen Y, -16..239. -/
  y    : Int
  /-- Screen X, -8..247. -/
  x    : Int
  /-- Tile index, its low bit forced to 0 in 8×16 mode. -/
  tile : Byte
  /-- The option field (R129). -/
  opts : Byte
  deriving DecidableEq, Repr

/-- `STAT` less its mode bits (R24): the four enables, bits 3 to 6, and the coincidence bit, bit 2. Bits 1:0 are the code of
`State.mode`, one piece of state with it (R41). -/
structure StatBits where
  hblankIe : Bool
  vblankIe : Bool
  oamIe    : Bool
  lycIe    : Bool
  coinc    : Bool
  deriving DecidableEq, Repr

/-- One index/data register pair with the palette memory behind it (R38, R39, R51, R52): entry `4p + i` is colour `i` of
palette `p`. -/
structure PalPort where
  /-- Bit 7 of the index register. -/
  autoInc : Bool
  /-- Bits 5:0 of the index register: the byte address. -/
  index   : BitVec 6
  /-- `bg_raw` or `obj_raw`: the 15-bit values (R51). -/
  raw     : Vector Color15 32
  /-- `bg_rgb` or `obj_rgb`: the derived display colours (R52). -/
  rgb     : Vector Color 32
  deriving DecidableEq, Repr

/-- Why a `STEP` breaks the caller's contract (R372); the other cause, an operation issued during another, cannot be
written in a model that runs one operation at a time. -/
inductive Contract where
  | negativeCycleCount
  deriving DecidableEq, Repr

/-- The faults of the model. -/
inductive Fault where
  /-- Raised by `STEP n` with `n < 0` and by nothing else: the model-level fault of R372, "not emulated-hardware behavior".
  No trace word spells it. Safe: the run has no successor state. -/
  | contractViolation (reason : Contract)
  deriving DecidableEq, Repr

/-- The refusals of the model. -/
inductive Refusal where
  /-- Raised by `step` for a pending trace word that spells no operation (R140). Safe: the spec says a decoder refuses it. -/
  | illegalTraceWord (w : TraceWord)
  /-- Kept for an arm of `exec` that has no meaning yet; no arm uses it. Safe. -/
  | notModelled (mnemonic : String)
  deriving DecidableEq, Repr

/-- The state of the block (R20) and, after it, the model's own fields. -/
structure State where
  /-- The parameters of the instance; no operation changes them (R8, R11, R12). -/
  cfg : Params
  /-- `LCDC` (R23). -/
  lcdc : Byte
  /-- `STAT` bits 6:2 (R24). -/
  stat : StatBits
  /-- `SCY` (R25). -/
  scy : Byte
  /-- `SCX` (R26). -/
  scx : Byte
  /-- `LY`, the scanline index (R27, R40). -/
  ly : Byte
  /-- `LYC` (R28). -/
  lyc : Byte
  /-- `BGP` (R29). -/
  bgp : Byte
  /-- `OBP0` (R30). -/
  obp0 : Byte
  /-- `OBP1` (R31). -/
  obp1 : Byte
  /-- `WY` (R32). -/
  wy : Byte
  /-- `WX` (R33). -/
  wx : Byte
  /-- `VBK.bank` (R34). -/
  vbk : Bank
  /-- `HDMA1`, source high (R35). -/
  hdma1 : Byte
  /-- `HDMA2`, source low (R35). -/
  hdma2 : Byte
  /-- `HDMA3`, destination high (R36). -/
  hdma3 : Byte
  /-- `HDMA4`, destination low (R36). -/
  hdma4 : Byte
  /-- `HDMA5`, control/length as read (R37). -/
  hdma5 : Byte
  /-- `BCPS` and background palette memory (R38, R51, R52). -/
  bgPal : PalPort
  /-- `OCPS` and sprite palette memory (R39, R51, R52). -/
  objPal : PalPort
  /-- The sequencer mode (R40, R41). -/
  mode : Mode
  /-- `line_cycle`, 0..455 (R42). -/
  lineCycle : Nat
  /-- `display_on` (R43). -/
  displayOn : Bool
  /-- `vram[b][a]`, both banks, keyed by `vramKey` (R46). -/
  vram : Memory
  /-- `oam[i]`, keyed by `i` (R47). -/
  oam : Memory
  /-- `tile_px` (R48). -/
  tilePx : TileCache
  /-- `bg_shade` (R50). -/
  bgShade : Vector RawIndex 4
  /-- `obj_shade[0]` (R50). -/
  objShade0 : Vector RawIndex 4
  /-- `obj_shade[1]` (R50). -/
  objShade1 : Vector RawIndex 4
  /-- `sprite[n]` (R53). -/
  sprites : Vector Sprite 40
  /-- `line_color` (R55). -/
  lineColor : ColorRow
  /-- `line_raw` (R55). -/
  lineRaw : Vector RawIndex 256
  /-- `line_prio` (R55). -/
  linePrio : Vector Bool 256
  /-- `frame` (R56). -/
  frame : Frame
  /-- `hdma_active` (R57). -/
  hdmaActive : Bool
  /-- `hdma_src` (R57). -/
  hdmaSrc : BusAddr
  /-- `hdma_dst` (R57). -/
  hdmaDst : VramOffset
  /-- `IF.vblank` (R58). -/
  ifVblank : Bool
  /-- `IF.stat` (R58). -/
  ifStat : Bool
  /-- The model's own: the trace words the bus master has yet to issue, first first (notes/assumptions/1.md). -/
  pending : List TraceWord
  /-- The model's own: the result of the last `RD`, `none` when the block did not answer it. -/
  answer : Option Byte
  /-- The model's own: the output trace, oldest event first (R176, R375). -/
  trace : List Event
  /-- The model's own: how many `UNSPEC` draws were made (R22). -/
  unspecDraws : Nat
  /-- The model's own: how many bytes were asked of the external memory interface (R93). -/
  memReads : Nat
  /-- The model's own: bytes the environment declares the external memory interface to answer, by address; about every
  other address nothing is known (R93). -/
  extMem : List Host.Cell
  deriving DecidableEq, Repr

/-- An index/data pair after reset: index 0, no auto-increment, palette memory 0 (R60). -/
def PalPort.reset : PalPort where
  autoInc := false
  index := 0#6
  raw := Vector.replicate 32 0#15
  rgb := Vector.replicate 32 0#24

/-- A descriptor after reset: `DecodeSprite` of four zero bytes (R60). -/
def Sprite.reset : Sprite := ⟨-16, -8, 0#8, 0#8⟩

/-- The machine right after reset (R60). `COLOR_MODE`, the interrupt-pending flags and the model's own fields have values
the spec does not give: notes/assumptions/2.md, 3.md and 1.md. -/
def State.reset : State where
  cfg := Params.default
  lcdc := 0x00#8
  stat := ⟨false, false, false, false, true⟩
  scy := 0x00#8
  scx := 0x00#8
  ly := 0x00#8
  lyc := 0x00#8
  bgp := 0x00#8
  obp0 := 0x00#8
  obp1 := 0x00#8
  wy := 0x00#8
  wx := 0x00#8
  vbk := 0#1
  hdma1 := 0x00#8
  hdma2 := 0x00#8
  hdma3 := 0x00#8
  hdma4 := 0x00#8
  hdma5 := 0xFF#8
  bgPal := PalPort.reset
  objPal := PalPort.reset
  mode := .hblank
  lineCycle := 0
  displayOn := false
  vram := []
  oam := []
  tilePx := []
  bgShade := Vector.replicate 4 0#2
  objShade0 := Vector.replicate 4 0#2
  objShade1 := Vector.replicate 4 0#2
  sprites := Vector.replicate 40 Sprite.reset
  lineColor := Vector.replicate 256 0#24
  lineRaw := Vector.replicate 256 0#2
  linePrio := Vector.replicate 256 false
  frame := Vector.replicate 144 (Vector.replicate 256 0#24)
  hdmaActive := false
  hdmaSrc := 0x0000#16
  hdmaDst := 0#13
  ifVblank := false
  ifStat := false
  pending := []
  answer := none
  trace := []
  unspecDraws := 0
  memReads := 0
  extMem := []

end Sys2Proof.Machine
end

