-- ==== Sys2Proof/Machine/Ops.lean ====
section
/-! DEFINITION. The named operations every meaning goes through: sparse stores in canonical form, the memories, the tile
cache with its write-through decode, the sprite table, the output events (`RaiseIrq`, `Present`), the answers of a `RD`
with their free bits, the external memory interface, and the next operation of the bus master. -/

namespace Sys2Proof.Machine

/-- What an operation answers. -/
abbrev Result := Host.Outcome State Fault Refusal

/-! ## Tables -/

/-- The table of `n` entries `f 0 .. f (n-1)`. -/
def tabulate {α : Type} (n : Nat) (f : Nat → α) : Vector α n :=
  ⟨⟨(List.range n).map f⟩, by simp⟩

/-- Entry `i` of a 4-entry table. -/
def at4 {α : Type} (t : Vector α 4) (i : BitVec 2) : α := t[i.toNat]'i.isLt
/-- Entry `i` of an 8-entry table. -/
def at8 {α : Type} (t : Vector α 8) (i : BitVec 3) : α := t[i.toNat]'i.isLt
/-- Entry `i` of a 32-entry table. -/
def at32 {α : Type} (t : Vector α 32) (i : BitVec 5) : α := t[i.toNat]'i.isLt
/-- Entry `i` of a 256-entry table. -/
def at256 {α : Type} (t : Vector α 256) (i : Byte) : α := t[i.toNat]'i.isLt
/-- The 32-entry table with entry `i` replaced. -/
def set32 {α : Type} (t : Vector α 32) (i : BitVec 5) (v : α) : Vector α 32 := t.set i.toNat v i.isLt

/-! ## Sparse stores

A store is a list of key and value pairs; a key that is not listed reads as `d`. -/

/-- The value at key `k`. -/
def storeRead {α : Type} (d : α) : List (Nat × α) → Nat → α
  | [], _ => d
  | c :: rest, k => if c.1 = k then c.2 else storeRead d rest k

/-- The store without key `k`. -/
def storeErase {α : Type} : List (Nat × α) → Nat → List (Nat × α)
  | [], _ => []
  | c :: rest, k => if c.1 = k then storeErase rest k else c :: storeErase rest k

/-- The store with the pair put before the first larger key. -/
def storeInsert {α : Type} : List (Nat × α) → Nat → α → List (Nat × α)
  | [], k, v => [(k, v)]
  | c :: rest, k, v => if k < c.1 then (k, v) :: c :: rest else c :: storeInsert rest k v

/-- The store after writing `v` at `k`: writing what an unlisted key reads as removes the entry. -/
def storeWrite {α : Type} [DecidableEq α] (d : α) (l : List (Nat × α)) (k : Nat) (v : α) : List (Nat × α) :=
  if v = d then storeErase l k else storeInsert (storeErase l k) k v

/-- The canonical form: keys strictly rising and below `bound`, and no value equal to what an unlisted key reads as. -/
def storeWf {α : Type} [DecidableEq α] (d : α) (bound : Nat) : List (Nat × α) → Bool
  | [] => true
  | c :: rest => c.1 < bound && decide (c.2 ≠ d) && rest.all (fun e => c.1 < e.1) && storeWf d bound rest

/-- What a byte of `vram` or `oam` that nothing has written reads as: 0x00, its reset value (R60). -/
def Memory.unlisted : Byte := 0x00#8

/-- The canonical form of a byte memory with keys below `bound`. -/
def Memory.wf (bound : Nat) (m : Memory) : Bool := storeWf Memory.unlisted bound m

/-- A tile row that nothing has decoded: all raw index 0 (R60). -/
def blankRow : PixelRow := Vector.replicate 8 0#2

/-! ## Video memory and the tile cache -/

/-- The key of `vram[b][a]` (R46). -/
def vramKey (b : Bank) (a : VramOffset) : Nat := b.toNat * 0x2000 + a.toNat

/-- `VramRead(b, a)` (R46). -/
def vramRead (s : State) (b : Bank) (a : VramOffset) : Byte := storeRead Memory.unlisted s.vram (vramKey b a)

/-- The store part of `VramWrite`: `vram[b][a] <- v` (R262). -/
def vramStore (b : Bank) (a : VramOffset) (v : Byte) (s : State) : State :=
  { s with vram := storeWrite Memory.unlisted s.vram (vramKey b a) v }

/-- The key of row `r` of stored tile `t` of tile bank `k` in VRAM bank `b` (R48). -/
def tileKey (b k : Bank) (t : Byte) (r : BitVec 3) : Nat :=
  ((b.toNat * 2 + k.toNat) * 256 + t.toNat) * 8 + r.toNat

/-- Row `r` of a stored tile (R48). -/
def tileRow (s : State) (b k : Bank) (t : Byte) (r : BitVec 3) : PixelRow :=
  storeRead blankRow s.tilePx (tileKey b k t r)

/-- `tile_px[b][k][t][r][c]` (R48). -/
def tilePixel (s : State) (b k : Bank) (t : Byte) (r c : BitVec 3) : RawIndex :=
  at8 (tileRow s b k t r) c

/-- `tile_px[b][k][t][r][0..7] <- row` (R263). -/
def tileStore (b k : Bank) (t : Byte) (r : BitVec 3) (row : PixelRow) (s : State) : State :=
  { s with tilePx := storeWrite blankRow s.tilePx (tileKey b k t r) row }

/-- `DecodePixel(lo, hi, c)`: the high plane gives bit 1, the low plane bit 0, bit 7 is the leftmost pixel (R126). -/
def decodePixel (lo hi : Byte) (c : Nat) : RawIndex :=
  BitVec.ofBool (hi.getLsbD (7 - c)) ++ BitVec.ofBool (lo.getLsbD (7 - c))

/-- `DecodeRow(lo, hi)` (R260). -/
def decodeRow (lo hi : Byte) : PixelRow := tabulate 8 (decodePixel lo hi)

/-- Where tile bank `k` starts inside a VRAM bank: `TILE1_OFF` or `TILE0_OFF` (R84). -/
def tileOff (m : AddrMap) (k : Bank) : VramOffset := if k = 1#1 then m.tile1Off else m.tile0Off

/-- The VRAM offset of the low plane of row `r` of stored tile `t` of tile bank `k`; the high plane follows it
(R48, R261). -/
def tileRowOffset (m : AddrMap) (k : Bank) (t : Byte) (r : BitVec 3) : VramOffset :=
  tileOff m k + BitVec.ofNat 13 (16 * t.toNat + 2 * r.toNat)

/-- The part of `DecodeOnWrite(b, a)` about tile bank `k`: when `a` lies in its window, the row that the byte belongs to is
decoded from its two bytes (R261, R263). The window, the tile and the row are counted from the bank's start, so that the
numbers of R263 are those of the default map (notes/assumptions/7.md). -/
def decodeBank (b k : Bank) (a : VramOffset) (s : State) : State :=
  let rel := a - tileOff s.cfg.map k
  if rel.toNat < Config.tileBankSize then
    let t := rel.extractLsb' 4 8
    let r := rel.extractLsb' 1 3
    let p := tileRowOffset s.cfg.map k t r
    tileStore b k t r (decodeRow (vramRead s b p) (vramRead s b (p + 1#13))) s
  else s

/-- `DecodeOnWrite(b, a)` (R263): tile bank 1, then tile bank 0. -/
def decodeOnWrite (b : Bank) (a : VramOffset) (s : State) : State := decodeBank b 0#1 a (decodeBank b 1#1 a s)

/-- `VramWrite(b, a, v)`, the one primitive that changes `vram` (R262): the store first, then the decode, which does nothing
outside the tile windows. -/
def vramWrite (b : Bank) (a : VramOffset) (v : Byte) (s : State) : State := decodeOnWrite b a (vramStore b a v s)

/-- The bank that bus accesses and colour-DMA writes reach: `VBK.bank`, or 0 in the monochrome variant (R91, R264). -/
def busBank (s : State) : Bank := if s.cfg.colorMode then s.vbk else 0#1

/-! ## The sprite attribute table -/

/-- `oam[i]` (R47). -/
def oamRead (s : State) (i : Nat) : Byte := storeRead Memory.unlisted s.oam i

/-- `oam[i] <- v` (R303). -/
def oamStore (i : Nat) (v : Byte) (s : State) : State :=
  { s with oam := storeWrite Memory.unlisted s.oam i v }

/-- `DecodeSprite(b0, b1, b2, b3, size)` (R300). -/
def decodeSprite (b0 b1 b2 b3 : Byte) (size : Bool) : Sprite where
  y := (b0.toNat : Int) - 16
  x := (b1.toNat : Int) - 8
  tile := if size then b2 &&& 0xFE#8 else b2
  opts := b3

/-- Descriptor `n` as the table bytes and `LCDC.obj_size`, bit 2, give it now (R54). -/
def spriteOf (s : State) (n : Nat) : Sprite :=
  decodeSprite (oamRead s (4 * n)) (oamRead s (4 * n + 1)) (oamRead s (4 * n + 2)) (oamRead s (4 * n + 3))
    (s.lcdc.getLsbD 2)

/-- `RefreshSprites()` (R302). -/
def refreshSprites (s : State) : State := { s with sprites := tabulate 40 (spriteOf s) }

/-! ## Output events -/

/-- `RaiseIrq(k)`: the pending flag is set and the event recorded (R375). The one way the block signals the interpreter;
it transfers no control and saves nothing (R381), and there is no return operation beside it (R382). -/
def raiseIrq : Irq → State → State
  | .vblank, s => { s with ifVblank := true, trace := s.trace ++ [.raise .vblank] }
  | .stat, s => { s with ifStat := true, trace := s.trace ++ [.raise .stat] }

/-- `if en then RaiseIrq(k)`. -/
def raiseIf (en : Bool) (k : Irq) (s : State) : State := if en then raiseIrq k s else s

/-- `Present(frame)` (R176). -/
def present (s : State) : State := { s with trace := s.trace ++ [.present s.frame] }

/-- `raise ContractViolation(reason)` (R372): no successor state. -/
def contractViolation (reason : Contract) : Host.Outcome State Fault Refusal := .fault (.contractViolation reason)

/-! ## Answers of a read -/

/-- The block answers a `RD` with this byte. -/
def answerByte (v : Byte) (s : State) : State := { s with answer := some v }

/-- The block does not answer (R86, R244). -/
def answerNone (s : State) : State := { s with answer := none }

/-- The block answers with a byte some bits of which are `UNSPEC`: `f` places the bits of a fresh draw (R22). -/
def answerDraw (f : Byte → Byte) (s : State) : State :=
  { s with answer := some (f (Config.unspec s.unspecDraws)), unspecDraws := s.unspecDraws + 1 }

/-- A `WR` the block does not answer: nothing changes (R243). -/
def unmappedWrite (s : State) : State := s

/-- The effect in the colour variant; an unmapped write in the monochrome one (R240). -/
def colorWrite (f : State → State) (s : State) : State := if s.cfg.colorMode then f s else unmappedWrite s

/-- The answer in the colour variant; no answer in the monochrome one (R240). -/
def colorRead (f : State → State) (s : State) : State := if s.cfg.colorMode then f s else answerNone s

/-! ## The external memory interface -/

/-- What the environment has declared about an address of the external memory, if anything. -/
def extLookup : List Host.Cell → BusAddr → Option Byte
  | [], _ => none
  | c :: rest, a => if c.1 = a.toNat then some c.2 else extLookup rest a

/-- What the `j`-th read from now answers at address `a`: the declared byte, else a free value (R93). -/
def memAnswer (s : State) (j : Nat) (a : BusAddr) : Byte :=
  match extLookup s.extMem a with
  | some v => v
  | none => Config.memRead (s.memReads + j) a

/-- `MemRead(a, 1)` (R93): the byte, and the state in which one more byte was asked for. -/
def memRead (a : BusAddr) (s : State) : Byte × State :=
  (memAnswer s 0 a, { s with memReads := s.memReads + 1 })

/-! ## The bus master -/

/-- The next trace word and the state without it; `none` when the bus master issues nothing. -/
def nextWord (s : State) : Option (TraceWord × State) :=
  match s.pending with
  | [] => none
  | w :: rest => some (w, { s with pending := rest })

/-- The word the host numbers (`tableWord`) put before the operations still to come. A number that is no 32-bit word
leaves them as they are. -/
def withPendingWord (nbits w : Nat) (s : State) : State :=
  match tableWord nbits w with
  | some word => { s with pending := word :: s.pending }
  | none => s

end Sys2Proof.Machine
end

