-- ==== Sys2Proof/Machine/Operands.lean ====
section
/-! DEFINITION. The data formats of spec/30_encoding.md: the fields of `LCDC`, of the map attribute byte and of the sprite
option field, the palette byte address, the monochrome palette decode, the colour scaling and the colour-DMA addresses. -/

namespace Sys2Proof.Machine

/-! ## `LCDC` (R23) -/

/-- Bit 7: display enable request. -/
def lcdEn (s : State) : Bool := s.lcdc.getLsbD 7
/-- Bit 6: window tile map. -/
def winMap (s : State) : Bool := s.lcdc.getLsbD 6
/-- Bit 5: window layer enable. -/
def winEn (s : State) : Bool := s.lcdc.getLsbD 5
/-- Bit 4: tile bank for background and window. -/
def tileBank (s : State) : Bank := BitVec.ofBool (s.lcdc.getLsbD 4)
/-- Bit 3: background tile map. -/
def bgMap (s : State) : Bool := s.lcdc.getLsbD 3
/-- Bit 2: sprite size. -/
def objSize (s : State) : Bool := s.lcdc.getLsbD 2
/-- Bit 1: sprite layer enable. -/
def objEn (s : State) : Bool := s.lcdc.getLsbD 1
/-- Bit 0: background layer enable. -/
def bgEn (s : State) : Bool := s.lcdc.getLsbD 0

/-- The height of every sprite (R305). -/
def spriteHeight (s : State) : Nat := if objSize s then 16 else 8

/-- Where tile map 1 or 0 starts inside a VRAM bank: `MAP1_OFF` or `MAP0_OFF` (R84, R127). -/
def mapOff (m : AddrMap) (sel : Bool) : VramOffset := if sel then m.map1Off else m.map0Off

/-- The offset of the cell at map row `mr` and map column `mc` (R127). -/
def cellOffset (m : AddrMap) (sel : Bool) (mr mc : Nat) : VramOffset := mapOff m sel + BitVec.ofNat 13 (32 * mr + mc)

/-! ## The map attribute byte (R130) -/

/-- Bit 7: background tile priority. -/
def attrPrio (a : Byte) : Bool := a.getLsbD 7
/-- Bit 6: vertical flip. -/
def attrVflip (a : Byte) : Bool := a.getLsbD 6
/-- Bit 5: horizontal flip. -/
def attrHflip (a : Byte) : Bool := a.getLsbD 5
/-- Bit 3: VRAM bank of the tile data. -/
def attrVbank (a : Byte) : Bank := BitVec.ofBool (a.getLsbD 3)
/-- Bits 2:0: background palette number. -/
def attrPal (a : Byte) : BitVec 3 := a.extractLsb' 0 3

/-! ## The sprite option field (R129) -/

/-- Bit 7: BG-priority flag. -/
def optPrio (o : Byte) : Bool := o.getLsbD 7
/-- Bit 6: vertical flip. -/
def optVflip (o : Byte) : Bool := o.getLsbD 6
/-- Bit 5: horizontal flip. -/
def optHflip (o : Byte) : Bool := o.getLsbD 5
/-- Bit 4: monochrome palette, `OBP0` or `OBP1`. -/
def optMonoPal (o : Byte) : Bool := o.getLsbD 4
/-- Bit 3: VRAM bank of the sprite's tile data (colour). -/
def optVbank (o : Byte) : Bank := BitVec.ofBool (o.getLsbD 3)
/-- Bits 2:0: sprite palette number (colour). -/
def optCpal (o : Byte) : BitVec 3 := o.extractLsb' 0 3

/-! ## Palettes -/

/-- `shade(P, i) = (P >> 2i) & 3` (R133, R281). -/
def shade (p : Byte) (i : Nat) : RawIndex := (p >>> (2 * i)).extractLsb' 0 2

/-- The four shades of a monochrome palette register (R50, R281). -/
def shadeTable (p : Byte) : Vector RawIndex 4 := tabulate 4 (shade p)

/-- The byte-select bit of a palette byte address: `false` the low byte, `true` the high byte (R131, R285). -/
def palHalf (a : BitVec 6) : Bool := a.getLsbD 0

/-- The entry number of a palette byte address, `palette*4 + colour` (R131, R285). -/
def palEntry (a : BitVec 6) : BitVec 5 := a.extractLsb' 1 5

/-- The entry number of colour `i` of palette `p` (R51, R131). -/
def entryOf (p : BitVec 3) (i : RawIndex) : BitVec 5 := p ++ i

/-- `Scale15(raw)`: each 5-bit channel times 8, red in the result's high byte (R132, R290). -/
def scale15 (raw : Color15) : Color :=
  let ch (lo : Nat) : Byte := (raw.extractLsb' lo 5).zeroExtend 8 * 8#8
  ch 0 ++ ch 5 ++ ch 10

/-- The raw value with its low or its high byte replaced; bit 7 of a high byte is discarded (R286). -/
def mergeHalf (half : Bool) (old : Color15) (v : Byte) : Color15 :=
  if half then (old &&& 0x00FF#15) ||| ((v &&& 0x7F#8).zeroExtend 15 <<< 8)
  else (old &&& 0x7F00#15) ||| v.zeroExtend 15

/-! ## Colour-DMA (R134, R135, R136) -/

/-- `DmaSrc()` (R134). -/
def dmaSrc (s : State) : BusAddr := (s.hdma1 ++ s.hdma2) &&& 0xFFF0#16

/-- `DmaDst()` (R135): 13 bits, the low 4 cleared, the high 3 of `HDMA3` discarded. -/
def dmaDst (s : State) : VramOffset := ((s.hdma3 ++ s.hdma4) &&& 0x1FF0#16).setWidth 13

/-- The mode bit of a control byte: `true` HBlank-linked (R136). -/
def dmaLinked (v : Byte) : Bool := v.getLsbD 7

/-- Bits 6:0 of a control byte: the block count minus 1 (R136). -/
def dmaLen (v : Byte) : BitVec 7 := v.extractLsb' 0 7

end Sys2Proof.Machine
end

