-- ==== Sys2Proof/Machine/ColorDma.lean ====
section
/-! DEFINITION. The colour-DMA sequencer (spec/46_color_dma.md): the control write and the HBlank step. -/

namespace Sys2Proof.Machine

/-- One byte of `CopyBlock` (R358). -/
def copyByte (src : BusAddr) (dst : VramOffset) (s : State) (k : Nat) : State :=
  let (v, s1) := memRead (src + BitVec.ofNat 16 k) s
  vramWrite s1.vbk (dst + BitVec.ofNat 13 k) v s1

/-- `CopyBlock(s, d)`: 16 bytes in ascending order (R358). -/
def copyBlock (src : BusAddr) (dst : VramOffset) (s : State) : State :=
  (List.range Config.dmaBlock).foldl (copyByte src dst) s

/-- The blocks of `GeneralTransfer(n)` from `src` to `dst`, in ascending order, wrapping at the end of each space (R353, R359). -/
def copyBlocks (src : BusAddr) (dst : VramOffset) (n : Nat) (s : State) : State :=
  (List.range n).foldl (fun t j => copyBlock (src + BitVec.ofNat 16 (16 * j)) (dst + BitVec.ofNat 13 (16 * j)) t) s

/-- `GeneralTransfer(n)` (R353). -/
def generalTransfer (n : Nat) (s : State) : State :=
  { copyBlocks (dmaSrc s) (dmaDst s) n s with hdma5 := 0xFF#8 }

/-- `StartHdma(len)`: the start and the restart of an HBlank-linked transfer (R354, R357). -/
def startHdma (len : BitVec 7) (s : State) : State :=
  { s with hdmaSrc := dmaSrc s, hdmaDst := dmaDst s, hdma5 := len.zeroExtend 8, hdmaActive := true }

/-- `CancelHdma()` (R355). -/
def cancelHdma (s : State) : State :=
  { s with hdmaActive := false, hdma5 := 0x80#8 ||| (s.hdma5 &&& 0x7F#8) }

/-- `DmaControlWrite(v)` (R352). -/
def dmaControlWrite (v : Byte) (s : State) : State :=
  if dmaLinked v then startHdma (dmaLen v) s
  else if s.hdmaActive then cancelHdma s
  else generalTransfer ((dmaLen v).toNat + 1) s

/-- `WR HDMA5, v` (R232). -/
def execWrHdma5 (v : Byte) (s : State) : Result := .next (colorWrite (dmaControlWrite v) s)

/-- `HdmaBlock()`: one block at HBlank entry (R356). -/
def hdmaBlock (s : State) : State :=
  let s1 := copyBlock s.hdmaSrc s.hdmaDst s
  let s2 := { s1 with hdmaSrc := s.hdmaSrc + 16#16, hdmaDst := s.hdmaDst + 16#13 }
  let rem := dmaLen s.hdma5
  if rem = 0#7 then { s2 with hdma5 := 0xFF#8, hdmaActive := false }
  else { s2 with hdma5 := (rem - 1#7).zeroExtend 8 }

end Sys2Proof.Machine
end

