-- ==== Sys2Proof/Machine/Palette.lean ====
section
/-! DEFINITION. The palette manager (spec/43_palette.md): the colour palette ports and the two colour functions the compositor
uses. The monochrome registers are in Machine/Registers.lean. -/

namespace Sys2Proof.Machine

/-- The index register written: bit 7 `auto_inc`, bits 5:0 `index`, bit 6 discarded (R234, R238). -/
def writeIndex (v : Byte) (p : PalPort) : PalPort :=
  { p with autoInc := v.getLsbD 7, index := v.extractLsb' 0 6 }

/-- What the index register reads as: bit 6 from the draw (R235, R239). -/
def indexByte (p : PalPort) (draw : Byte) : Byte :=
  BitVec.ofBool p.autoInc ++ BitVec.ofBool (draw.getLsbD 6) ++ p.index

/-- `PalDataWrite(SET, v)` on the pair of a set (R286, R287). -/
def palDataWrite (v : Byte) (p : PalPort) : PalPort :=
  let e := palEntry p.index
  let new := mergeHalf (palHalf p.index) (at32 p.raw e) v
  { p with
    raw := set32 p.raw e new
    rgb := set32 p.rgb e (scale15 new)
    index := if p.autoInc then p.index + 1#6 else p.index }

/-- `PalDataRead(SET)` (R288, R289): bit 7 of a high byte is unspecified, and nothing but the answer changes. -/
def palDataRead (p : PalPort) (s : State) : State :=
  let raw := at32 p.raw (palEntry p.index)
  if palHalf p.index then answerDraw (fun u => BitVec.ofBool (u.getLsbD 7) ++ raw.extractLsb' 8 7) s
  else answerByte (raw.extractLsb' 0 8) s

/-- `WR BCPS, v` (R234). -/
def execWrBcps (v : Byte) (s : State) : Result :=
  .next (colorWrite (fun s => { s with bgPal := writeIndex v s.bgPal }) s)
/-- `RD BCPS` (R235). -/
def execRdBcps (s : State) : Result := .next (colorRead (answerDraw (indexByte s.bgPal)) s)
/-- `WR BCPD, v` (R236). -/
def execWrBcpd (v : Byte) (s : State) : Result :=
  .next (colorWrite (fun s => { s with bgPal := palDataWrite v s.bgPal }) s)
/-- `RD BCPD` (R237). -/
def execRdBcpd (s : State) : Result := .next (colorRead (palDataRead s.bgPal) s)

/-- `WR OCPS, v` (R238). -/
def execWrOcps (v : Byte) (s : State) : Result :=
  .next (colorWrite (fun s => { s with objPal := writeIndex v s.objPal }) s)
/-- `RD OCPS` (R239). -/
def execRdOcps (s : State) : Result := .next (colorRead (answerDraw (indexByte s.objPal)) s)
/-- `WR OCPD, v` (R241). -/
def execWrOcpd (v : Byte) (s : State) : Result :=
  .next (colorWrite (fun s => { s with objPal := palDataWrite v s.objPal }) s)
/-- `RD OCPD` (R242). -/
def execRdOcpd (s : State) : Result := .next (colorRead (palDataRead s.objPal) s)

/-! ## What the compositor asks (R291) -/

/-- `MonoBgColor(raw)` (R282). -/
def monoBgColor (s : State) (raw : RawIndex) : Color := at4 s.cfg.monoShade (at4 s.bgShade raw)

/-- `MonoObjColor(p, raw)` (R283): `p` is `true` for `OBP1`. -/
def monoObjColor (s : State) (p : Bool) (raw : RawIndex) : Color :=
  at4 s.cfg.monoShade (at4 (if p then s.objShade1 else s.objShade0) raw)

/-- `BgColor(pal, raw)` (R291). -/
def bgColor (s : State) (pal : BitVec 3) (raw : RawIndex) : Color :=
  if s.cfg.colorMode then at32 s.bgPal.rgb (entryOf pal raw) else monoBgColor s raw

/-- `ObjColor(opts, raw)` (R291). -/
def objColor (s : State) (opts : Byte) (raw : RawIndex) : Color :=
  if s.cfg.colorMode then at32 s.objPal.rgb (entryOf (optCpal opts) raw) else monoObjColor s (optMonoPal opts) raw

end Sys2Proof.Machine
end

