-- ==== Sys2Proof/Machine/TileDecoder.lean ====
section
/-! DEFINITION. `WR` and `RD` of the VRAM window, and how a tile is looked up (spec/42_tile_decoder.md). The write-through
decode itself is `vramWrite` in Machine/Ops.lean, since colour-DMA shares it. -/

namespace Sys2Proof.Machine

/-- The stored tile that a requested index names in tile bank `k`: direct in bank 1, signed in bank 0 (R266). -/
def storedTile (k : Bank) (idx : Byte) : Byte := if k = 1#1 then idx else idx + 128#8

/-- `TileLookup(b, k, idx, r, c)` (R266). -/
def tileLookup (s : State) (b k : Bank) (idx : Byte) (r c : BitVec 3) : RawIndex :=
  tilePixel s b k (storedTile k idx) r c

/-- `SpritePixel(b, t, r, c)`: sprites use tile bank 1 and the direct index (R267). -/
def spritePixel (s : State) (b : Bank) (t : Byte) (r c : BitVec 3) : RawIndex := tilePixel s b 1#1 t r c

/-- `WR A, v` into the VRAM window (R264). -/
def execWrVram (off : VramOffset) (v : Byte) (s : State) : Result := .next (vramWrite (busBank s) off v s)

/-- `RD A` of the VRAM window (R265). -/
def execRdVram (off : VramOffset) (s : State) : Result := .next (answerByte (vramRead s (busBank s) off) s)

end Sys2Proof.Machine
end

