-- ==== Sys2Proof/Machine/Compositor.lean ====
section
/-! DEFINITION. The scanline compositor (spec/45_compositor.md): `RenderLine` and its four steps. It runs only inside `STEP`,
at HBlank entry; it writes the line buffers and one row of `frame`, and nothing else. -/

namespace Sys2Proof.Machine

/-! ## Fetching a map cell -/

/-- What `FetchTileRow` returns: 8 raw indices left to right, the priority bit, the palette number (R316). -/
structure TileRow where
  raw8 : PixelRow
  prio : Bool
  pal  : BitVec 3
  deriving DecidableEq, Repr

/-- The attribute byte of the cell at offset `o`: from VRAM bank 1, or 0x00 in the monochrome variant (R315). -/
def cellAttr (s : State) (o : VramOffset) : Byte := if s.cfg.colorMode then vramRead s 1#1 o else 0x00#8

/-- `FetchTileRow(o, tr)` (R316). -/
def fetchTileRow (s : State) (o : VramOffset) (tr : BitVec 3) : TileRow :=
  let idx := vramRead s 0#1 o
  let attr := cellAttr s o
  let r := if attrVflip attr then 7#3 - tr else tr
  { raw8 := tabulate 8 fun i =>
      tileLookup s (attrVbank attr) (tileBank s) idx r (BitVec.ofNat 3 (if attrHflip attr then 7 - i else i))
    prio := attrPrio attr
    pal := attrPal attr }

/-- One pixel of a layer: its raw index, its tile's priority bit and its colour. -/
structure LayerPixel where
  raw   : RawIndex
  prio  : Bool
  color : Color
  deriving DecidableEq, Repr

/-- Column `i` of a fetched row, coloured (R317). -/
def layerPixel (s : State) (row : TileRow) (i : Nat) : LayerPixel :=
  let raw := at8 row.raw8 (BitVec.ofNat 3 i)
  { raw := raw, prio := row.prio, color := bgColor s row.pal raw }

/-! ## Background -/

/-- The row of the background plane shown on scanline `ly` (R314). -/
def bgPlaneRow (s : State) (ly : Byte) : Byte := ly + s.scy

/-- Position `p` of the assembled, unscrolled row: map column `p div 8`, tile column `p mod 8` (R312). -/
def bgPlanePixel (s : State) (ly : Byte) (p : Nat) : LayerPixel :=
  let y := (bgPlaneRow s ly).toNat
  layerPixel s (fetchTileRow s (cellOffset s.cfg.map (bgMap s) (y / 8) (p / 8)) (BitVec.ofNat 3 (y % 8))) (p % 8)

/-- The background at screen column `x`: the assembled row rotated by `SCX` (R312, R318), or blank when the layer is
disabled (R313). -/
def bgPixel (s : State) (ly : Byte) (x : Nat) : LayerPixel :=
  if bgEn s then bgPlanePixel s ly ((x + s.scx.toNat) % 256)
  else { raw := 0#2, prio := false, color := s.cfg.blankColor }

/-- `RenderBackground(ly)`: all 256 entries of the three line buffers (R312, R313). -/
def renderBackground (ly : Byte) (s : State) : State :=
  { s with
    lineRaw := tabulate 256 fun x => (bgPixel s ly x).raw
    linePrio := tabulate 256 fun x => (bgPixel s ly x).prio
    lineColor := tabulate 256 fun x => (bgPixel s ly x).color }

/-! ## Window -/

/-- The window is drawn on scanline `ly` (R320). -/
def windowOn (s : State) (ly : Byte) : Bool := winEn s && s.wy.toNat ≤ ly.toNat

/-- `x0 = WX - 7`, the screen column of the first window pixel (R321). -/
def windowX0 (s : State) : Int := (s.wx.toNat : Int) - 7

/-- Window pixel `wx` on window line `wl` (R322). -/
def windowPixel (s : State) (wl wx : Nat) : LayerPixel :=
  layerPixel s (fetchTileRow s (cellOffset s.cfg.map (winMap s) (wl / 8) (wx / 8 % 32)) (BitVec.ofNat 3 (wl % 8))) (wx % 8)

/-- What the window shows at screen column `x`, if it covers that column on scanline `ly` (R321, R323). -/
def windowAt (s : State) (ly : Byte) (x : Nat) : Option LayerPixel :=
  if windowOn s ly ∧ windowX0 s ≤ (x : Int) then
    some (windowPixel s (ly.toNat - s.wy.toNat) ((x : Int) - windowX0 s).toNat)
  else none

/-- `RenderWindow(ly)`: the overlay region is overwritten in all three line buffers (R323). -/
def renderWindow (ly : Byte) (s : State) : State :=
  { s with
    lineRaw := tabulate 256 fun x => match windowAt s ly x with
      | some p => p.raw
      | none => at256 s.lineRaw (BitVec.ofNat 8 x)
    linePrio := tabulate 256 fun x => match windowAt s ly x with
      | some p => p.prio
      | none => at256 s.linePrio (BitVec.ofNat 8 x)
    lineColor := tabulate 256 fun x => match windowAt s ly x with
      | some p => p.color
      | none => at256 s.lineColor (BitVec.ofNat 8 x) }

/-! ## Sprites -/

/-- Descriptor `n`. -/
def spriteAt (s : State) (n : Fin 40) : Sprite := s.sprites[n.val]'n.isLt

/-- The sprite's vertical span covers scanline `ly` (R331). -/
def covers (sp : Sprite) (h : Nat) (ly : Byte) : Bool :=
  decide (sp.y ≤ (ly.toNat : Int)) && decide ((ly.toNat : Int) < sp.y + (h : Int))

/-- `SelectSprites(ly, h)`: the first 10 covering entries in table order (R331). -/
def selectSprites (s : State) (ly : Byte) (h : Nat) : List (Fin 40) :=
  ((List.finRange 40).filter fun n => covers (spriteAt s n) h ly).take Config.maxLineSprites

/-- The row of the sprite's pixel grid shown on scanline `ly`, after the vertical flip (R333). -/
def spriteGridRow (sp : Sprite) (ly : Byte) (h : Nat) : Nat :=
  let r := ((ly.toNat : Int) - sp.y).toNat
  if optVflip sp.opts then h - 1 - r else r

/-- The raw index of column `i` of the sprite on scanline `ly` (R333). -/
def spriteRaw (s : State) (sp : Sprite) (ly : Byte) (h : Nat) (i : Nat) : RawIndex :=
  let r := spriteGridRow sp ly h
  let t := if 8 ≤ r then sp.tile + 1#8 else sp.tile
  let vb := if s.cfg.colorMode then optVbank sp.opts else 0#1
  spritePixel s vb t (BitVec.ofNat 3 (r % 8)) (BitVec.ofNat 3 (if optHflip sp.opts then 7 - i else i))

/-- `SpriteWins(opts, x)` against the background and window only (R335, R336). -/
def spriteWins (s : State) (opts : Byte) (x : Nat) : Bool :=
  let behind := at256 s.lineRaw (BitVec.ofNat 8 x)
  if s.cfg.colorMode then
    behind == 0#2 || (!optPrio opts && !at256 s.linePrio (BitVec.ofNat 8 x))
  else
    !optPrio opts || behind == 0#2

/-- One column of `DrawSprite` (R333, R334, R337): clipped at the edges, transparent at raw index 0, hidden where it loses. -/
def drawSpriteColumn (sp : Sprite) (ly : Byte) (h : Nat) (s : State) (i : Nat) : State :=
  let raw := spriteRaw s sp ly h i
  let x := sp.x + (i : Int)
  if x < 0 ∨ 256 ≤ x ∨ raw = 0#2 then s
  else if spriteWins s sp.opts x.toNat then
    { s with lineColor := s.lineColor.setIfInBounds x.toNat (objColor s sp.opts raw) }
  else s

/-- `DrawSprite(s, ly, h)` (R333). -/
def drawSprite (sp : Sprite) (ly : Byte) (h : Nat) (s : State) : State :=
  (List.range 8).foldl (drawSpriteColumn sp ly h) s

/-- `RenderSprites(ly)`: the selected sprites from the last to the first (R330, R332). -/
def renderSprites (ly : Byte) (s : State) : State :=
  if objEn s then
    let h := spriteHeight s
    (selectSprites s ly h).reverse.foldl (fun t n => drawSprite (spriteAt t n) ly h t) s
  else s

/-! ## Commit and the whole run -/

/-- `CommitLine(ly)`: `frame[ly] <- line_color` (R340). -/
def commitLine (ly : Byte) (s : State) : State := { s with frame := s.frame.setIfInBounds ly.toNat s.lineColor }

/-- `RenderLine(ly)` (R310). -/
def renderLine (ly : Byte) (s : State) : State :=
  commitLine ly (renderSprites ly (renderWindow ly (renderBackground ly s)))

end Sys2Proof.Machine
end

