-- ==== Sys2Proof/Machine/Flags.lean ====
section
/-! DEFINITION. The status flags (R45): how the `STAT` byte is written and read, the scanline comparison, and the interrupt
sources that read the enables. -/

namespace Sys2Proof.Machine

/-- The 2-bit code of a mode (R41). -/
def modeCode : Mode → BitVec 2
  | .hblank => 0#2
  | .vblank => 1#2
  | .oam => 2#2
  | .xfer => 3#2

/-- What `RD STAT` shows: bit 7 from the draw, the enables, the coincidence bit, the mode code (R203). -/
def statByte (s : State) (draw : Byte) : Byte :=
  BitVec.ofBool (draw.getLsbD 7) ++ BitVec.ofBool s.stat.lycIe ++ BitVec.ofBool s.stat.oamIe
    ++ BitVec.ofBool s.stat.vblankIe ++ BitVec.ofBool s.stat.hblankIe ++ BitVec.ofBool s.stat.coinc
    ++ modeCode s.mode

/-- `STAT[6:3] <- v[6:3]` (R202). -/
def setStatEnables (v : Byte) (s : State) : State :=
  { s with stat := { s.stat with
      hblankIe := v.getLsbD 3, vblankIe := v.getLsbD 4, oamIe := v.getLsbD 5, lycIe := v.getLsbD 6 } }

/-- `STAT.coinc <- c`. -/
def setCoinc (c : Bool) (s : State) : State := { s with stat := { s.stat with coinc := c } }

/-- `LycCompare()` (R174): the bit is set exactly when `LY = LYC`, and the `STAT` request is raised on its 0 to 1 change
when the enable is set. -/
def lycCompare (s : State) : State :=
  let new := s.ly == s.lyc
  raiseIf (!s.stat.coinc && new && s.stat.lycIe) .stat (setCoinc new s)

end Sys2Proof.Machine
end

