-- ==== Sys2Proof/Machine/ModeTiming.lean ====
section
/-! DEFINITION. The mode-timing state machine (spec/40_mode_timing.md): the tick, the mode entries, the line and frame wraps,
display enable and disable, and `STEP n`. -/

namespace Sys2Proof.Machine

/-! ## Mode entries -/

/-- `EnterOAM()` (R164). -/
def enterOam (s : State) : State := raiseIf s.stat.oamIe .stat { s with mode := .oam }

/-- `EnterXFER()` (R165). -/
def enterXfer (s : State) : State := { s with mode := .xfer }

/-- The colour-DMA step of an HBlank entry: one block when a transfer is pending (R166). -/
def hblankDma (s : State) : State := if s.cfg.colorMode && s.hdmaActive then hdmaBlock s else s

/-- `EnterHBLANK()`: compositor, then colour-DMA, then the request (R166, R379). -/
def enterHblank (s : State) : State :=
  let s1 := hblankDma (renderLine s.ly { s with mode := .hblank })
  raiseIf s1.stat.hblankIe .stat s1

/-- `EnterVBLANK()` (R167, R379). -/
def enterVblank (s : State) : State :=
  present (raiseIf s.stat.vblankIe .stat (raiseIrq .vblank { s with mode := .vblank }))

/-! ## Line and frame wrap -/

/-- `LineWrapVisible()` (R170). -/
def lineWrapVisible (s : State) : State :=
  let s1 := lycCompare { s with lineCycle := 0, ly := s.ly + 1#8 }
  if s1.ly = 144#8 then enterVblank s1 else enterOam s1

/-- `FrameWrap()` (R172): one comparison, with the index 0. -/
def frameWrap (s : State) : State := enterOam (lycCompare { s with ly := 0x00#8 })

/-- `LineWrapVBlank()` (R171). -/
def lineWrapVblank (s : State) : State :=
  let s1 := { s with lineCycle := 0, ly := s.ly + 1#8 }
  if s1.ly = 154#8 then frameWrap s1 else lycCompare s1

/-! ## The tick -/

/-- `Tick()`: one elapsed clock cycle with the display on (R161). -/
def tick (s : State) : State :=
  let s1 := { s with lineCycle := s.lineCycle + 1 }
  match s1.mode with
  | .oam => if s1.lineCycle = Config.oamEnd then enterXfer s1 else s1
  | .xfer => if s1.lineCycle = Config.xferEnd then enterHblank s1 else s1
  | .hblank => if s1.lineCycle = Config.lineCycles then lineWrapVisible s1 else s1
  | .vblank => if s1.lineCycle = Config.lineCycles then lineWrapVblank s1 else s1

/-- `n` ticks, one after another (R160). -/
def ticks : Nat → State → State
  | 0, s => s
  | n + 1, s => ticks n (tick s)

/-! ## Display enable and disable -/

/-- `DisplayDisable()` (R162). -/
def displayDisable (s : State) : State :=
  { lycCompare { s with displayOn := false, ly := 0x00#8 } with mode := .hblank, lineCycle := 0 }

/-- `DisplayEnable()` (R163). -/
def displayEnable (s : State) : State := enterOam { s with displayOn := true, lineCycle := 0 }

/-- The sampling of the display request, once at the start of a `STEP` (R160). -/
def sampleDisplay (s : State) : State :=
  if lcdEn s && !s.displayOn then displayEnable s
  else if !lcdEn s && s.displayOn && s.mode == .vblank then displayDisable s
  else s

/-- The ticks of a `STEP`: none while the display is off (R160, R390). -/
def runTicks (n : Nat) (s : State) : State := if s.displayOn then ticks n s else s

/-- `STEP n` (R160). -/
def execStep (n : Int) (s : State) : Result :=
  if n < 0 then contractViolation .negativeCycleCount
  else .next (runTicks n.toNat (sampleDisplay s))

end Sys2Proof.Machine
end

