-- ==== Sys2Proof/Machine/Registers.lean ====
section
/-! DEFINITION. `WR` and `RD` of the control, status, scroll, scanline, compare, monochrome palette, window, bank-select and
colour-DMA address registers, and of unmapped addresses (spec/41_register_access.md). None of them raises an exception. -/

namespace Sys2Proof.Machine

/-! ## Control and status -/

/-- `WR LCDC, v` (R200): the descriptor table is refreshed when `obj_size` changes; the display request is only stored. -/
def execWrLcdc (v : Byte) (s : State) : Result :=
  let s1 := { s with lcdc := v }
  .next (if objSize s1 = objSize s then s1 else refreshSprites s1)

/-- `RD LCDC` (R201). -/
def execRdLcdc (s : State) : Result := .next (answerByte s.lcdc s)

/-- `WR STAT, v` (R202). -/
def execWrStat (v : Byte) (s : State) : Result := .next (setStatEnables v s)

/-- `RD STAT` (R203). -/
def execRdStat (s : State) : Result := .next (answerDraw (statByte s) s)

/-! ## Scroll, scanline, compare -/

/-- `WR SCY, v` (R204). -/
def execWrScy (v : Byte) (s : State) : Result := .next { s with scy := v }
/-- `RD SCY` (R205). -/
def execRdScy (s : State) : Result := .next (answerByte s.scy s)
/-- `WR SCX, v` (R206). -/
def execWrScx (v : Byte) (s : State) : Result := .next { s with scx := v }
/-- `RD SCX` (R207). -/
def execRdScx (s : State) : Result := .next (answerByte s.scx s)

/-- `WR LY, v` (R208): the value is ignored, the index cleared and the comparison run. -/
def execWrLy (_v : Byte) (s : State) : Result := .next (lycCompare { s with ly := 0x00#8 })
/-- `RD LY` (R209). -/
def execRdLy (s : State) : Result := .next (answerByte s.ly s)

/-- `WR LYC, v` (R210). -/
def execWrLyc (v : Byte) (s : State) : Result := .next (lycCompare { s with lyc := v })
/-- `RD LYC` (R211). -/
def execRdLyc (s : State) : Result := .next (answerByte s.lyc s)

/-! ## Monochrome palette registers: in both variants (R62) -/

/-- `WR BGP, v` (R212). -/
def execWrBgp (v : Byte) (s : State) : Result := .next { s with bgp := v, bgShade := shadeTable v }
/-- `RD BGP` (R213). -/
def execRdBgp (s : State) : Result := .next (answerByte s.bgp s)
/-- `WR OBP0, v` (R214). -/
def execWrObp0 (v : Byte) (s : State) : Result := .next { s with obp0 := v, objShade0 := shadeTable v }
/-- `RD OBP0` (R215). -/
def execRdObp0 (s : State) : Result := .next (answerByte s.obp0 s)
/-- `WR OBP1, v` (R216). -/
def execWrObp1 (v : Byte) (s : State) : Result := .next { s with obp1 := v, objShade1 := shadeTable v }
/-- `RD OBP1` (R217). -/
def execRdObp1 (s : State) : Result := .next (answerByte s.obp1 s)

/-! ## Window position -/

/-- `WR WY, v` (R218). -/
def execWrWy (v : Byte) (s : State) : Result := .next { s with wy := v }
/-- `RD WY` (R219). -/
def execRdWy (s : State) : Result := .next (answerByte s.wy s)
/-- `WR WX, v` (R220). -/
def execWrWx (v : Byte) (s : State) : Result := .next { s with wx := v }
/-- `RD WX` (R221). -/
def execRdWx (s : State) : Result := .next (answerByte s.wx s)

/-! ## Bank select and colour-DMA addresses: colour variant only (R240) -/

/-- `WR VBK, v` (R222): bit 0 is stored, bits 7:1 are discarded. -/
def execWrVbk (v : Byte) (s : State) : Result :=
  .next (colorWrite (fun s => { s with vbk := v.extractLsb' 0 1 }) s)

/-- `RD VBK` (R223): bits 7:1 are unspecified. -/
def execRdVbk (s : State) : Result :=
  .next (colorRead (answerDraw fun u => u.extractLsb' 1 7 ++ s.vbk) s)

/-- `WR HDMA1, v` (R224). -/
def execWrHdma1 (v : Byte) (s : State) : Result := .next (colorWrite (fun s => { s with hdma1 := v }) s)
/-- `RD HDMA1` (R225). -/
def execRdHdma1 (s : State) : Result := .next (colorRead (answerByte s.hdma1) s)
/-- `WR HDMA2, v` (R226): all 8 bits are stored. -/
def execWrHdma2 (v : Byte) (s : State) : Result := .next (colorWrite (fun s => { s with hdma2 := v }) s)
/-- `RD HDMA2` (R227). -/
def execRdHdma2 (s : State) : Result := .next (colorRead (answerByte s.hdma2) s)
/-- `WR HDMA3, v` (R228): all 8 bits are stored. -/
def execWrHdma3 (v : Byte) (s : State) : Result := .next (colorWrite (fun s => { s with hdma3 := v }) s)
/-- `RD HDMA3` (R229). -/
def execRdHdma3 (s : State) : Result := .next (colorRead (answerByte s.hdma3) s)
/-- `WR HDMA4, v` (R230): all 8 bits are stored. -/
def execWrHdma4 (v : Byte) (s : State) : Result := .next (colorWrite (fun s => { s with hdma4 := v }) s)
/-- `RD HDMA4` (R231). -/
def execRdHdma4 (s : State) : Result := .next (colorRead (answerByte s.hdma4) s)

/-- `RD HDMA5` (R233): as the colour-DMA rules last left it. -/
def execRdHdma5 (s : State) : Result := .next (colorRead (answerByte s.hdma5) s)

/-! ## Unmapped addresses -/

/-- `WR A, v` with `A` unmapped (R243). -/
def execWrUnmapped (_a : BusAddr) (_v : Byte) (s : State) : Result := .next (unmappedWrite s)

/-- `RD A` with `A` unmapped (R244). -/
def execRdUnmapped (_a : BusAddr) (s : State) : Result := .next (answerNone s)

end Sys2Proof.Machine
end

