-- ==== Sys2Proof/Machine/ResetOp.lean ====
section
/-! DEFINITION. The `RESET` operation (R410). -/

namespace Sys2Proof.Machine

/-- Every piece of the block's state at its reset value; the parameters, the interrupt-pending flags, the operations still to
come and the output are as they were, and no event is emitted (R410, R60). -/
def resetBlock (s : State) : State :=
  { State.reset with
    cfg := s.cfg
    ifVblank := s.ifVblank
    ifStat := s.ifStat
    pending := s.pending
    answer := s.answer
    trace := s.trace
    unspecDraws := s.unspecDraws
    memReads := s.memReads
    extMem := s.extMem }

/-- `RESET` (R410). -/
def execReset (s : State) : Result := .next (resetBlock s)

end Sys2Proof.Machine
end

