-- ==== Sys2Proof/Machine/SpriteTable.lean ====
section
/-! DEFINITION. `WR` and `RD` of the OAM window (spec/44_sprite_table.md). -/

namespace Sys2Proof.Machine

/-- `WR A, v` into the OAM window (R303): the byte, then the refresh. -/
def execWrOam (i : Fin 160) (v : Byte) (s : State) : Result := .next (refreshSprites (oamStore i.val v s))

/-- `RD A` of the OAM window (R304). -/
def execRdOam (i : Fin 160) (s : State) : Result := .next (answerByte (oamRead s i.val) s)

end Sys2Proof.Machine
end

