-- ==== Sys2Proof/Machine/Dispatch.lean ====
section
/-! DEFINITION. One operation to its meaning: one arm per constructor of `Instr`, each one direct call. -/

namespace Sys2Proof.Machine

def exec (i : Instr) (s : State) : Host.Outcome State Fault Refusal :=
  match i with
  | .reset => Sys2Proof.Machine.execReset s
  | .step n => Sys2Proof.Machine.execStep n s
  | .wrLcdc v => Sys2Proof.Machine.execWrLcdc v s
  | .rdLcdc => Sys2Proof.Machine.execRdLcdc s
  | .wrStat v => Sys2Proof.Machine.execWrStat v s
  | .rdStat => Sys2Proof.Machine.execRdStat s
  | .wrScy v => Sys2Proof.Machine.execWrScy v s
  | .rdScy => Sys2Proof.Machine.execRdScy s
  | .wrScx v => Sys2Proof.Machine.execWrScx v s
  | .rdScx => Sys2Proof.Machine.execRdScx s
  | .wrLy v => Sys2Proof.Machine.execWrLy v s
  | .rdLy => Sys2Proof.Machine.execRdLy s
  | .wrLyc v => Sys2Proof.Machine.execWrLyc v s
  | .rdLyc => Sys2Proof.Machine.execRdLyc s
  | .wrBgp v => Sys2Proof.Machine.execWrBgp v s
  | .rdBgp => Sys2Proof.Machine.execRdBgp s
  | .wrObp0 v => Sys2Proof.Machine.execWrObp0 v s
  | .rdObp0 => Sys2Proof.Machine.execRdObp0 s
  | .wrObp1 v => Sys2Proof.Machine.execWrObp1 v s
  | .rdObp1 => Sys2Proof.Machine.execRdObp1 s
  | .wrWy v => Sys2Proof.Machine.execWrWy v s
  | .rdWy => Sys2Proof.Machine.execRdWy s
  | .wrWx v => Sys2Proof.Machine.execWrWx v s
  | .rdWx => Sys2Proof.Machine.execRdWx s
  | .wrVbk v => Sys2Proof.Machine.execWrVbk v s
  | .rdVbk => Sys2Proof.Machine.execRdVbk s
  | .wrHdma1 v => Sys2Proof.Machine.execWrHdma1 v s
  | .rdHdma1 => Sys2Proof.Machine.execRdHdma1 s
  | .wrHdma2 v => Sys2Proof.Machine.execWrHdma2 v s
  | .rdHdma2 => Sys2Proof.Machine.execRdHdma2 s
  | .wrHdma3 v => Sys2Proof.Machine.execWrHdma3 v s
  | .rdHdma3 => Sys2Proof.Machine.execRdHdma3 s
  | .wrHdma4 v => Sys2Proof.Machine.execWrHdma4 v s
  | .rdHdma4 => Sys2Proof.Machine.execRdHdma4 s
  | .wrHdma5 v => Sys2Proof.Machine.execWrHdma5 v s
  | .rdHdma5 => Sys2Proof.Machine.execRdHdma5 s
  | .wrBcps v => Sys2Proof.Machine.execWrBcps v s
  | .rdBcps => Sys2Proof.Machine.execRdBcps s
  | .wrBcpd v => Sys2Proof.Machine.execWrBcpd v s
  | .rdBcpd => Sys2Proof.Machine.execRdBcpd s
  | .wrOcps v => Sys2Proof.Machine.execWrOcps v s
  | .rdOcps => Sys2Proof.Machine.execRdOcps s
  | .wrOcpd v => Sys2Proof.Machine.execWrOcpd v s
  | .rdOcpd => Sys2Proof.Machine.execRdOcpd s
  | .wrVram off v => Sys2Proof.Machine.execWrVram off v s
  | .rdVram off => Sys2Proof.Machine.execRdVram off s
  | .wrOam k v => Sys2Proof.Machine.execWrOam k v s
  | .rdOam k => Sys2Proof.Machine.execRdOam k s
  | .wrUnmapped a v => Sys2Proof.Machine.execWrUnmapped a v s
  | .rdUnmapped a => Sys2Proof.Machine.execRdUnmapped a s

end Sys2Proof.Machine
end

