-- ==== Sys2Proof/Machine/Step.lean ====
section
/-! DEFINITION. One step of the machine: the next operation the bus master issues is decoded under the instance's address map
and run; a word that spells no operation is refused (R140); with nothing issued the block does nothing, since "no agent acts
between operations" (R5). -/

namespace Sys2Proof.Machine

/-- One step. -/
def step (s : State) : Host.Outcome State Fault Refusal :=
  match nextWord s with
  | none => .next s
  | some (w, s1) =>
    match decode s.cfg.map w with
    | some i => exec i s1
    | none => .refused (.illegalTraceWord w)

/-- The state in which the word is the next operation the bus master issues: it stands for the bus master's issue of it
(notes/assumptions/1.md). -/
def State.withFetchWord (s : State) (nbits w : Nat) : State := withPendingWord nbits w s

end Sys2Proof.Machine
end

