-- ==== Sys2Proof/Safety.lean ====
section
/-! DEFINITION. What counts as a good state and a good outcome, in the terms the statements use: the state invariants of R61
with the coherence invariants R49, R50, R52, R54 and R57 and the canonical form of the stores, and the two kinds of operation
the rules speak of as a whole (reads, and the operations that can raise a request). -/

namespace Sys2Proof.Machine

/-- The tile cache shows what the bytes of `vram` decode to (R49). -/
def TilesCoherent (s : State) : Prop :=
  ∀ (b k : Bank) (t : Byte) (r : BitVec 3),
    let p := tileRowOffset s.cfg.map k t r
    tileRow s b k t r = decodeRow (vramRead s b p) (vramRead s b (p + 1#13))

/-- The monochrome tables show what their registers decode to (R50). -/
def ShadesCoherent (s : State) : Prop :=
  s.bgShade = shadeTable s.bgp ∧ s.objShade0 = shadeTable s.obp0 ∧ s.objShade1 = shadeTable s.obp1

/-- The display colours of a palette set are the scaled raw values (R52). -/
def PalPort.Coherent (p : PalPort) : Prop := ∀ e : BitVec 5, at32 p.rgb e = scale15 (at32 p.raw e)

/-- The descriptor table shows what the table bytes and `LCDC.obj_size` decode to (R54). -/
def SpritesCoherent (s : State) : Prop := ∀ n : Fin 40, spriteAt s n = spriteOf s n.val

/-- The three stores are in canonical form. -/
def StoresCanonical (s : State) : Prop :=
  Memory.wf 0x4000 s.vram = true ∧ Memory.wf 160 s.oam = true ∧ storeWf blankRow 0x2000 s.tilePx = true

/-- The sequencer position is one of the documented timing table (R61 (a) to (f), less the history that (f) and (j) speak
of). -/
structure PositionOk (s : State) : Prop where
  lyRange     : s.ly.toNat ≤ 153
  cycleRange  : s.lineCycle ≤ 455
  offIdle     : s.displayOn = false → s.mode = .hblank ∧ s.ly = 0x00#8 ∧ s.lineCycle = 0
  oamPlace    : s.mode = .oam → s.lineCycle ≤ 79 ∧ s.ly.toNat ≤ 143
  xferPlace   : s.mode = .xfer → 80 ≤ s.lineCycle ∧ s.lineCycle ≤ 251 ∧ s.ly.toNat ≤ 143
  hblankPlace : s.displayOn = true → s.mode = .hblank → 252 ≤ s.lineCycle ∧ s.ly.toNat ≤ 143

/-- The state invariants of R61, less the history of (f) and (j), with the canonical form of the stores. -/
structure Inv (s : State) : Prop where
  position : PositionOk s
  coinc    : s.stat.coinc = (s.ly == s.lyc)
  tiles    : TilesCoherent s
  shades   : ShadesCoherent s
  bgPal    : s.bgPal.Coherent
  objPal   : s.objPal.Coherent
  sprites  : SpritesCoherent s
  dmaFlag  : s.hdma5.getLsbD 7 = !s.hdmaActive
  stores   : StoresCanonical s

/-- The operation is a `RD`. -/
def isRead : Instr → Bool
  | .rdLcdc | .rdStat | .rdScy | .rdScx | .rdLy | .rdLyc | .rdBgp | .rdObp0 | .rdObp1 | .rdWy | .rdWx
  | .rdVbk | .rdHdma1 | .rdHdma2 | .rdHdma3 | .rdHdma4 | .rdHdma5 | .rdBcps | .rdBcpd | .rdOcps | .rdOcpd
  | .rdVram _ | .rdOam _ | .rdUnmapped _ => true
  | .reset | .step _
  | .wrLcdc _ | .wrStat _ | .wrScy _ | .wrScx _ | .wrLy _ | .wrLyc _ | .wrBgp _ | .wrObp0 _ | .wrObp1 _
  | .wrWy _ | .wrWx _ | .wrVbk _ | .wrHdma1 _ | .wrHdma2 _ | .wrHdma3 _ | .wrHdma4 _ | .wrHdma5 _
  | .wrBcps _ | .wrBcpd _ | .wrOcps _ | .wrOcpd _ | .wrVram _ _ | .wrOam _ _ | .wrUnmapped _ _ => false

/-- The operation is a `STEP`. -/
def isStep : Instr → Bool
  | .step _ => true
  | _ => false

/-- The operation is one of those inside which a request can be raised: `STEP`, `WR LY`, `WR LYC` (R375). -/
def mayRaise : Instr → Bool
  | .step _ | .wrLy _ | .wrLyc _ => true
  | _ => false

end Sys2Proof.Machine
end

