-- ==== Sys2Proof/Certificates/Slice0/Obligations.lean ====
section
/-! DEFINITION. The statements for the provers. The words they use beside the model's own are in namespace `Sys2Proof.Spec`:
the transition table of R168, the picture as a function of registers and memory bytes, and the counting of output events. -/

namespace Sys2Proof.Spec

open Sys2Proof Sys2Proof.Machine

/-! ## Words of the statements -/

/-- The operation answers a next state, and it satisfies `P`. -/
def Completes (i : Instr) (s : State) (P : State → Prop) : Prop := ∃ t, exec i s = .next t ∧ P t

/-- The comparison with these values of `LY` and `LYC` raises the request: the bit goes 0 to 1 and its enable is set (R174). -/
def compareFires (s : State) (ly lyc : Byte) : Bool := !s.stat.coinc && ly == lyc && s.stat.lycIe

/-- The state after `LY` and `LYC` were given these values and compared (R174): nothing else changes. -/
def compared (s : State) (ly lyc : Byte) : State :=
  { s with
    ly := ly
    lyc := lyc
    stat := { s.stat with coinc := ly == lyc }
    ifStat := s.ifStat || compareFires s ly lyc
    trace := s.trace ++ (if compareFires s ly lyc then [.raise .stat] else []) }

/-- `Scale15` in numbers: each channel times 8, red in bits 23:16, green in 15:8, blue in 7:0 (R290). -/
def scaled (raw : Color15) : Color :=
  BitVec.ofNat 24 (raw.toNat % 32 * 8 * 65536 + raw.toNat / 32 % 32 * 8 * 256 + raw.toNat / 1024 % 32 * 8)

/-- What `PalDataWrite` does to the pair of a set (R286): one half of the addressed entry, its display colour, and the index. -/
def PalWritten (old new : PalPort) (v : Byte) : Prop :=
  new.autoInc = old.autoInc ∧
  new.index = (if old.autoInc then BitVec.ofNat 6 ((old.index.toNat + 1) % 64) else old.index) ∧
  ∀ (p : BitVec 3) (i : RawIndex),
    if p = old.index.extractLsb' 3 3 ∧ i = old.index.extractLsb' 1 2 then
      (if old.index.getLsbD 0 then
        (at32 new.raw (p ++ i)).extractLsb' 0 8 = (at32 old.raw (p ++ i)).extractLsb' 0 8 ∧
        (at32 new.raw (p ++ i)).extractLsb' 8 7 = v.extractLsb' 0 7
      else
        (at32 new.raw (p ++ i)).extractLsb' 0 8 = v ∧
        (at32 new.raw (p ++ i)).extractLsb' 8 7 = (at32 old.raw (p ++ i)).extractLsb' 8 7) ∧
      at32 new.rgb (p ++ i) = scaled (at32 new.raw (p ++ i))
    else
      at32 new.raw (p ++ i) = at32 old.raw (p ++ i) ∧ at32 new.rgb (p ++ i) = at32 old.rgb (p ++ i)

/-- What `PalDataRead` answers (R288): a low byte whole; a high byte with bit 7 from a fresh draw. -/
def PalAnswered (p : PalPort) (i : Instr) (s : State) : Prop :=
  let raw := at32 p.raw (p.index.extractLsb' 3 3 ++ p.index.extractLsb' 1 2)
  if p.index.getLsbD 0 then
    ∃ b : Byte, exec i s = .next { s with answer := some b, unspecDraws := s.unspecDraws + 1 } ∧
      b.extractLsb' 0 7 = raw.extractLsb' 8 7
  else exec i s = .next { s with answer := some (raw.extractLsb' 0 8) }

/-- `DmaSrc()` as a number (R134). -/
def dmaSource (s : State) : Nat := (s.hdma1.toNat * 256 + s.hdma2.toNat) / 16 * 16
/-- `DmaDst()` as a number (R135). -/
def dmaDest (s : State) : Nat := (s.hdma3.toNat * 256 + s.hdma4.toNat) % 0x2000 / 16 * 16

/-- `count` bytes were copied into bank `b` at `dst ..` from the external memory at `src ..`, in ascending order with both
addresses wrapping, and no other byte of video memory changed (R353, R358, R359). -/
def Copied (s t : State) (b : Bank) (src dst count : Nat) : Prop :=
  (∀ j < count, vramRead t b (BitVec.ofNat 13 (dst + j)) = memAnswer s j (BitVec.ofNat 16 (src + j))) ∧
  ∀ (c : Bank) (a : VramOffset), ¬ (c = b ∧ ∃ j < count, a = BitVec.ofNat 13 (dst + j)) → vramRead t c a = vramRead s c a

/-! ## The sequencer -/

/-- The transition table of R168 with the display on: mode, `line_cycle` and `LY` after one tick. -/
def nextPosition (m : Mode) (c : Nat) (ly : Byte) : Mode × Nat × Byte :=
  match m with
  | .oam => (if c + 1 = 80 then .xfer else .oam, c + 1, ly)
  | .xfer => (if c + 1 = 252 then .hblank else .xfer, c + 1, ly)
  | .hblank =>
    if c + 1 = 456 then (if ly + 1#8 = 144#8 then .vblank else .oam, 0, ly + 1#8) else (.hblank, c + 1, ly)
  | .vblank =>
    if c + 1 = 456 then (if ly + 1#8 = 154#8 then (.oam, 0, 0#8) else (.vblank, 0, ly + 1#8)) else (.vblank, c + 1, ly)

/-- The tick that follows is one at which something happens beside the count: the end of OAM-search, of Pixel-transfer or of
a scanline. -/
def boundaryTick (m : Mode) (c : Nat) : Bool :=
  match m with
  | .oam => c + 1 == 80
  | .xfer => c + 1 == 252
  | .hblank | .vblank => c + 1 == 456

/-- The tick that follows enters HBlank with the display on: tick 252 of a scanline. -/
def AtHblankEntry (s : State) : Prop := s.displayOn = true ∧ s.mode = .xfer ∧ s.lineCycle = 251

/-- The first tick of a frame is about to run with the display on. -/
def FrameStart (s : State) : Prop :=
  s.displayOn = true ∧ s.mode = .oam ∧ s.lineCycle = 0 ∧ s.ly = 0#8

/-- The mode at cycle `c` of scanline `l` (R161). -/
def modeAt (l c : Nat) : Mode :=
  if 144 ≤ l then .vblank else if c < 80 then .oam else if c < 252 then .xfer else .hblank

/-- How many requests `k` a trace records. -/
def raises (k : Irq) (tr : List Event) : Nat := tr.countP fun e => match e with
  | .raise j => j == k
  | .present _ => false

/-- How many `Present` events a trace records. -/
def presents (tr : List Event) : Nat := tr.countP fun e => match e with
  | .raise _ => false
  | .present _ => true

/-! ## The picture as a function of registers and memory bytes -/

/-- The raw index of row `r`, column `c` of the tile whose first byte is at offset `start` of bank `b` (R125, R126). -/
def rawOfBytes (s : State) (b : Bank) (start r c : Nat) : RawIndex :=
  decodePixel (vramRead s b (BitVec.ofNat 13 (start + 2 * r))) (vramRead s b (BitVec.ofNat 13 (start + 2 * r + 1))) c

/-- The VRAM offset of the tile that a map byte names: direct from `TILE1_OFF`, signed from `TILE0_OFF` (R266, R84). -/
def tileStart (m : AddrMap) (direct : Bool) (idx : Byte) : Nat :=
  if direct then m.tile1Off.toNat + 16 * idx.toNat else m.tile0Off.toNat + 16 * ((idx.toNat + 128) % 256)

/-- A background or window pixel: raw index, tile priority bit, colour. -/
abbrev Back := RawIndex × Bool × Color

/-- Pixel row `tr`, column `tc` of the cell at map row `mr`, map column `mc` (R315, R316, R317). -/
def cellPixel (s : State) (map : Bool) (mr mc tr tc : Nat) : Back :=
  let o : VramOffset := BitVec.ofNat 13 ((if map then s.cfg.map.map1Off else s.cfg.map.map0Off).toNat + 32 * mr + mc)
  let attr : Byte := if s.cfg.colorMode then vramRead s 1#1 o else 0#8
  let raw := rawOfBytes s (BitVec.ofBool (attr.getLsbD 3)) (tileStart s.cfg.map (s.lcdc.getLsbD 4) (vramRead s 0#1 o))
    (if attr.getLsbD 6 then 7 - tr else tr) (if attr.getLsbD 5 then 7 - tc else tc)
  (raw, attr.getLsbD 7,
    if s.cfg.colorMode then scaled (at32 s.bgPal.raw (attr.extractLsb' 0 3 ++ raw))
    else at4 s.cfg.monoShade (s.bgp.extractLsb' (2 * raw.toNat) 2))

/-- What background and window leave at column `x` of scanline `ly` (R312 to R323). -/
def backPixel (s : State) (ly x : Nat) : Back :=
  if s.lcdc.getLsbD 5 ∧ s.wy.toNat ≤ ly ∧ s.wx.toNat ≤ x + 7 then
    cellPixel s (s.lcdc.getLsbD 6) ((ly - s.wy.toNat) / 8) ((x + 7 - s.wx.toNat) / 8 % 32) ((ly - s.wy.toNat) % 8)
      ((x + 7 - s.wx.toNat) % 8)
  else if s.lcdc.getLsbD 0 then
    cellPixel s (s.lcdc.getLsbD 3) ((ly + s.scy.toNat) % 256 / 8) ((x + s.scx.toNat) % 256 / 8)
      ((ly + s.scy.toNat) % 256 % 8) ((x + s.scx.toNat) % 256 % 8)
  else (0#2, false, s.cfg.blankColor)

/-- Byte `j` of attribute-table entry `n`, as a number. -/
def oamByte (s : State) (n j : Nat) : Nat := (oamRead s (4 * n + j)).toNat

/-- 8 or 16 (R305). -/
def spriteRows (s : State) : Nat := if s.lcdc.getLsbD 2 then 16 else 8

/-- Entry `n` covers scanline `ly` (R331): its Y byte is the screen row plus 16. -/
def entryCovers (s : State) (ly n : Nat) : Bool :=
  oamByte s n 0 ≤ ly + 16 && ly + 16 < oamByte s n 0 + spriteRows s

/-- Entry `n` is one of the first 10 covering entries in table order (R331). -/
def entrySelected (s : State) (ly n : Nat) : Bool :=
  entryCovers s ly n && (List.range n).countP (entryCovers s ly) < 10

/-- The raw index of entry `n` at column `x` of a scanline it covers, if it reaches that column (R333). -/
def entryRaw (s : State) (ly x n : Nat) : Option RawIndex :=
  if oamByte s n 1 ≤ x + 8 ∧ x + 8 < oamByte s n 1 + 8 then
    let opts := oamRead s (4 * n + 3)
    let r := if opts.getLsbD 6 then spriteRows s - 1 - (ly + 16 - oamByte s n 0) else ly + 16 - oamByte s n 0
    let c := if opts.getLsbD 5 then 7 - (x + 8 - oamByte s n 1) else x + 8 - oamByte s n 1
    let tile := if s.lcdc.getLsbD 2 then oamByte s n 2 / 2 * 2 + r / 8 else oamByte s n 2
    some (rawOfBytes s (if s.cfg.colorMode then BitVec.ofBool (opts.getLsbD 3) else 0#1)
      (s.cfg.map.tile1Off.toNat + 16 * tile) (r % 8) c)
  else none

/-- The sprite pixel wins against this background or window pixel (R334, R335, R336, R338). -/
def entryWins (s : State) (opts : Byte) (raw : RawIndex) (back : Back) : Bool :=
  raw != 0#2 && (back.1 == 0#2 || (!opts.getLsbD 7 && (!s.cfg.colorMode || !back.2.1)))

/-- Entry `n` is drawn at column `x` of scanline `ly`: the sprite layer is enabled (R330), and the entry is selected, reaches
the column and wins there. -/
def entryShows (s : State) (ly x n : Nat) : Bool :=
  s.lcdc.getLsbD 1 && entrySelected s ly n && match entryRaw s ly x n with
    | some raw => entryWins s (oamRead s (4 * n + 3)) raw (backPixel s ly x)
    | none => false

/-- The colour of a sprite pixel (R291, R337). -/
def entryColor (s : State) (opts : Byte) (raw : RawIndex) : Color :=
  if s.cfg.colorMode then scaled (at32 s.objPal.raw (opts.extractLsb' 0 3 ++ raw))
  else at4 s.cfg.monoShade ((if opts.getLsbD 4 then s.obp1 else s.obp0).extractLsb' (2 * raw.toNat) 2)

/-- The colour of column `x` of scanline `ly`: the first entry in table order that is drawn there, else the background or
window pixel (R332). -/
def picture (s : State) (ly x : Nat) : Color :=
  match (List.range 40).find? (entryShows s ly x) with
  | some n => match entryRaw s ly x n with
    | some raw => entryColor s (oamRead s (4 * n + 3)) raw
    | none => (backPixel s ly x).2.2
  | none => (backPixel s ly x).2.2

/-- One pixel of the frame buffer. -/
def framePixel (s : State) (y : Fin 144) (x : Byte) : Color := at256 s.frame[y] x

end Sys2Proof.Spec

open Sys2Proof Sys2Proof.Machine Sys2Proof.Spec

/-! ## Encoding and the step -/

/-- The words the spec itself writes out decode to the operations written beside them, and three illegal words to none
(95_test_vectors.md, E1 to E12). -/
def Obligations.SpecExampleWordsDecode : Prop :=
  decode .default 0x40FF4091#32 = some (.wrLcdc 0x91#8) ∧
  decode .default 0x00FF4400#32 = some .rdLy ∧
  decode .default 0x80000000#32 = some (.step 0) ∧
  decode .default 0x800001C8#32 = some (.step 456) ∧
  decode .default 0x80011250#32 = some (.step 70224) ∧
  decode .default 0xBFFFFFFF#32 = some (.step 0x3FFFFFFF) ∧
  decode .default 0xC0000000#32 = some .reset ∧
  decode .default 0x40800000#32 = some (.wrVram 0#13 0x00#8) ∧
  decode .default 0x40FE9FFF#32 = some (.wrOam 159 0xFF#8) ∧
  decode .default 0x01FF4400#32 = none ∧
  decode .default 0x00FF4401#32 = none ∧
  decode .default 0xC0000001#32 = none

/-- Every well-formed operation is what its word decodes to, under every address map the spec admits, whatever the variant
(notes/assumptions/13.md). -/
def Obligations.DecodeOfEncodeIsTheOperation : Prop :=
  ∀ (m : AddrMap) (i : Instr), m.wf = true → i.wf m = true → decode m (encode m i) = some i

/-- Every word that decodes is the word of what it decodes to, which is well-formed: no bit of a word is dropped. -/
def Obligations.EncodeOfDecodeIsTheWord : Prop :=
  ∀ (m : AddrMap) (w : TraceWord) (i : Instr), decode m w = some i → i.wf m = true ∧ encode m i = w

/-- R140: the words with a must-be-zero bit set, and no others, are refused: by the decoder, and by a step that meets one. -/
def Obligations.ReservedBitsAreRefused : Prop :=
  ∀ (m : AddrMap) (w : TraceWord),
    (decode m w = none ↔
      (w.extractLsb' 30 2 = 0b01#2 ∧ w.extractLsb' 24 6 ≠ 0#6) ∨
      (w.extractLsb' 30 2 = 0b00#2 ∧ (w.extractLsb' 24 6 ≠ 0#6 ∨ w.extractLsb' 0 8 ≠ 0#8)) ∨
      (w.extractLsb' 30 2 = 0b11#2 ∧ w.extractLsb' 0 30 ≠ 0#30)) ∧
    ∀ (s : State) (rest : List TraceWord), s.cfg.map = m → s.pending = w :: rest → decode m w = none →
      step s = .refused (.illegalTraceWord w)

/-- R86: under an address map the spec admits, a write word reaches the VRAM window, the OAM window, the register at its
address, or nothing; a read word alike. The decoder does not know the variant: the ten colour-only addresses decode to their
register's operation in the monochrome variant too, where the meaning is that of an unmapped access (DEDUCED,
notes/assumptions/7.md and 13.md). -/
def Obligations.BusAddressSelectsItsTarget : Prop :=
  ∀ (m : AddrMap), m.wf = true → ∀ (v : Byte),
    (∀ off : Nat, off < 0x2000 →
      decode m (busWrite (BitVec.ofNat 16 (m.vramBase.toNat + off)) v) = some (.wrVram (BitVec.ofNat 13 off) v) ∧
      decode m (busRead (BitVec.ofNat 16 (m.vramBase.toNat + off))) = some (.rdVram (BitVec.ofNat 13 off))) ∧
    (∀ i : Fin 160,
      decode m (busWrite (BitVec.ofNat 16 (m.oamBase.toNat + i.val)) v) = some (.wrOam i v) ∧
      decode m (busRead (BitVec.ofNat 16 (m.oamBase.toNat + i.val))) = some (.rdOam i)) ∧
    (∀ r : Reg,
      decode m (busWrite (m.regAddr r) v) = some (r.write v) ∧ decode m (busRead (m.regAddr r)) = some r.read) ∧
    (∀ a : BusAddr, m.answers a = false →
      decode m (busWrite a v) = some (.wrUnmapped a v) ∧ decode m (busRead a) = some (.rdUnmapped a))

/-- A step takes the next word the bus master issues and runs the operation it decodes to, and nothing around it. The queue
of words is the model's own (notes/assumptions/1.md). -/
def Obligations.StepRunsTheDecodedOperation : Prop :=
  ∀ (s : State) (w : TraceWord) (rest : List TraceWord) (i : Instr),
    s.pending = w :: rest → decode s.cfg.map w = some i → step s = exec i { s with pending := rest }

/-- R7: an operation whose operands are in range, a count of at least 0 for `STEP`, answers a next state from every state; the
only fault is the contract violation of a negative count, and no operation is refused. So a step whose word spells an
operation, or that finds no word, has a next state: this last clause rests on the queue of words, which is the model's own
(notes/assumptions/1.md), and R7 does not name `RESET`, so the statement is derived. -/
def Obligations.NoOperationInRangeFaults : Prop :=
  (∀ (i : Instr) (s : State), (∀ n, i = .step n → 0 ≤ n) → ∃ t, exec i s = .next t) ∧
  (∀ (i : Instr) (s : State) (f : Fault), exec i s = .fault f →
    f = .contractViolation .negativeCycleCount ∧ ∃ n, i = .step n ∧ n < 0) ∧
  (∀ (i : Instr) (s : State) (r : Refusal), exec i s ≠ .refused r) ∧
  ∀ s : State, (∀ w rest, s.pending = w :: rest → decode s.cfg.map w ≠ none) → ∃ t, step s = .next t

/-! ## Plain registers -/

/-- R204, R206, R218, R220: the scroll and window registers store the byte, and nothing else changes: the picture only at the
next compositor run. -/
def Obligations.ScrollAndWindowWritesStoreTheByte : Prop :=
  ∀ (s : State) (v : Byte),
    exec (.wrScy v) s = .next { s with scy := v } ∧
    exec (.wrScx v) s = .next { s with scx := v } ∧
    exec (.wrWy v) s = .next { s with wy := v } ∧
    exec (.wrWx v) s = .next { s with wx := v }

/-- R200: the byte is stored, the descriptor table is decoded afresh with the new size when the size bit changes and is
unchanged otherwise, and nothing else changes: the display request is not acted on. -/
def Obligations.WrLcdcRefreshesSpritesOnSizeChange : Prop :=
  ∀ (s : State) (v : Byte), Completes (.wrLcdc v) s fun t =>
    t = { s with lcdc := v, sprites := t.sprites } ∧
    (v.getLsbD 2 = s.lcdc.getLsbD 2 → t.sprites = s.sprites) ∧
    (v.getLsbD 2 ≠ s.lcdc.getLsbD 2 → ∀ n : Fin 40, spriteAt t n =
      decodeSprite (oamRead s (4 * n.val)) (oamRead s (4 * n.val + 1)) (oamRead s (4 * n.val + 2))
        (oamRead s (4 * n.val + 3)) (v.getLsbD 2))

/-- R202: bits 6:3 are stored, bits 2:0 and everything else keep their values, and no request is raised. -/
def Obligations.WrStatStoresOnlyTheEnables : Prop :=
  ∀ (s : State) (v : Byte),
    exec (.wrStat v) s = .next { s with stat := {
      hblankIe := v.getLsbD 3, vblankIe := v.getLsbD 4, oamIe := v.getLsbD 5, lycIe := v.getLsbD 6,
      coinc := s.stat.coinc } }

/-- R203, R41: bit 7 is free, bits 6:3 the enables, bit 2 the coincidence bit, bits 1:0 the mode code. -/
def Obligations.RdStatShowsEnablesCoincidenceAndMode : Prop :=
  ∀ s : State, ∃ b : Byte,
    exec .rdStat s = .next { s with answer := some b, unspecDraws := s.unspecDraws + 1 } ∧
    b.getLsbD 6 = s.stat.lycIe ∧ b.getLsbD 5 = s.stat.oamIe ∧ b.getLsbD 4 = s.stat.vblankIe ∧
    b.getLsbD 3 = s.stat.hblankIe ∧ b.getLsbD 2 = s.stat.coinc ∧
    b.extractLsb' 0 2 = (match s.mode with
      | .hblank => 0#2
      | .vblank => 1#2
      | .oam => 2#2
      | .xfer => 3#2)

/-- R201, R205, R207, R209, R211, R213, R215, R217, R219, R221: a read gives the register as it stands, and nothing changes
(decision D27 of the spec). -/
def Obligations.RegisterReadsGiveTheStoredByte : Prop :=
  ∀ s : State,
    exec .rdLcdc s = .next { s with answer := some s.lcdc } ∧
    exec .rdScy s = .next { s with answer := some s.scy } ∧
    exec .rdScx s = .next { s with answer := some s.scx } ∧
    exec .rdLy s = .next { s with answer := some s.ly } ∧
    exec .rdLyc s = .next { s with answer := some s.lyc } ∧
    exec .rdBgp s = .next { s with answer := some s.bgp } ∧
    exec .rdObp0 s = .next { s with answer := some s.obp0 } ∧
    exec .rdObp1 s = .next { s with answer := some s.obp1 } ∧
    exec .rdWy s = .next { s with answer := some s.wy } ∧
    exec .rdWx s = .next { s with answer := some s.wx }

/-- R208, R174: the index is cleared whatever is written, and the comparison runs; the sequencer goes on from where it is. -/
def Obligations.WrLyClearsTheIndexAndCompares : Prop :=
  ∀ (s : State) (v : Byte), exec (.wrLy v) s = .next (compared s 0x00#8 s.lyc)

/-- R210, R174: the compare register is written and the comparison runs at once. -/
def Obligations.WrLycStoresAndCompares : Prop :=
  ∀ (s : State) (v : Byte), exec (.wrLyc v) s = .next (compared s s.ly v)

/-- R212, R214, R216: the byte is stored and its table recomputed, in both variants. -/
def Obligations.MonoPaletteWritesRecomputeTheirTable : Prop :=
  ∀ (s : State) (v : Byte),
    Completes (.wrBgp v) s (fun t => t = { s with bgp := v, bgShade := t.bgShade } ∧
      ∀ i : BitVec 2, at4 t.bgShade i = v.extractLsb' (2 * i.toNat) 2) ∧
    Completes (.wrObp0 v) s (fun t => t = { s with obp0 := v, objShade0 := t.objShade0 } ∧
      ∀ i : BitVec 2, at4 t.objShade0 i = v.extractLsb' (2 * i.toNat) 2) ∧
    Completes (.wrObp1 v) s (fun t => t = { s with obp1 := v, objShade1 := t.objShade1 } ∧
      ∀ i : BitVec 2, at4 t.objShade1 i = v.extractLsb' (2 * i.toNat) 2)

/-! ## The colour variant's registers -/

/-- R222, R224, R226, R228, R230, R234, R238: colour variant; bit 0 of `VBK`, all 8 bits of `HDMA1` to `HDMA4`, and bits 7
and 5:0 of the index registers are stored; nothing else changes. The bits are the spec's decisions D11 and D12
(notes/assumptions/8.md). -/
def Obligations.ColourRegisterWrites : Prop :=
  ∀ (s : State) (v : Byte), s.cfg.colorMode = true →
    exec (.wrVbk v) s = .next { s with vbk := v.extractLsb' 0 1 } ∧
    exec (.wrHdma1 v) s = .next { s with hdma1 := v } ∧
    exec (.wrHdma2 v) s = .next { s with hdma2 := v } ∧
    exec (.wrHdma3 v) s = .next { s with hdma3 := v } ∧
    exec (.wrHdma4 v) s = .next { s with hdma4 := v } ∧
    exec (.wrBcps v) s = .next { s with bgPal := { s.bgPal with autoInc := v.getLsbD 7, index := v.extractLsb' 0 6 } } ∧
    exec (.wrOcps v) s = .next { s with objPal := { s.objPal with autoInc := v.getLsbD 7, index := v.extractLsb' 0 6 } }

/-- R223, R225, R227, R229, R231, R233, R235, R239: colour variant; the registers read as they stand, bits 7:1 of `VBK` and
bit 6 of the index registers free (decision D27 of the spec). -/
def Obligations.ColourRegisterReads : Prop :=
  ∀ s : State, s.cfg.colorMode = true →
    (∃ b : Byte, exec .rdVbk s = .next { s with answer := some b, unspecDraws := s.unspecDraws + 1 } ∧
      b.extractLsb' 0 1 = s.vbk) ∧
    exec .rdHdma1 s = .next { s with answer := some s.hdma1 } ∧
    exec .rdHdma2 s = .next { s with answer := some s.hdma2 } ∧
    exec .rdHdma3 s = .next { s with answer := some s.hdma3 } ∧
    exec .rdHdma4 s = .next { s with answer := some s.hdma4 } ∧
    exec .rdHdma5 s = .next { s with answer := some s.hdma5 } ∧
    (∃ b : Byte, exec .rdBcps s = .next { s with answer := some b, unspecDraws := s.unspecDraws + 1 } ∧
      b.getLsbD 7 = s.bgPal.autoInc ∧ b.extractLsb' 0 6 = s.bgPal.index) ∧
    (∃ b : Byte, exec .rdOcps s = .next { s with answer := some b, unspecDraws := s.unspecDraws + 1 } ∧
      b.getLsbD 7 = s.objPal.autoInc ∧ b.extractLsb' 0 6 = s.objPal.index)

/-- R240, R243, R244: an unmapped write changes nothing and an unmapped read is not answered; in the monochrome variant the
same holds of every colour-only register (decisions D26 and D32 of the spec; that an answer "none" is the last read's result
is the model's own, notes/assumptions/1.md). -/
def Obligations.UnmappedAndAbsentAccessesChangeNothing : Prop :=
  ∀ (s : State) (a : BusAddr) (v : Byte),
    (exec (.wrUnmapped a v) s = .next s ∧ exec (.rdUnmapped a) s = .next { s with answer := none }) ∧
    (s.cfg.colorMode = false →
      (∀ i ∈ [Instr.wrVbk v, .wrHdma1 v, .wrHdma2 v, .wrHdma3 v, .wrHdma4 v, .wrHdma5 v, .wrBcps v, .wrBcpd v, .wrOcps v,
        .wrOcpd v], exec i s = .next s) ∧
      (∀ i ∈ [Instr.rdVbk, .rdHdma1, .rdHdma2, .rdHdma3, .rdHdma4, .rdHdma5, .rdBcps, .rdBcpd, .rdOcps, .rdOcpd],
        exec i s = .next { s with answer := none }))

/-! ## Palettes -/

/-- R286, R287: colour variant; a data port write replaces the addressed half of one entry of its set, recomputes its colour,
advances the set's index when auto-increment is on, and changes nothing else. -/
def Obligations.PaletteDataWritesOneEntry : Prop :=
  ∀ (s : State) (v : Byte), s.cfg.colorMode = true →
    Completes (.wrBcpd v) s (fun t => t = { s with bgPal := t.bgPal } ∧ PalWritten s.bgPal t.bgPal v) ∧
    Completes (.wrOcpd v) s (fun t => t = { s with objPal := t.objPal } ∧ PalWritten s.objPal t.objPal v)

/-- R288, R289: colour variant; a data port answers the addressed half, bit 7 of a high byte free, and moves no index. -/
def Obligations.PaletteDataReads : Prop :=
  ∀ s : State, s.cfg.colorMode = true → PalAnswered s.bgPal .rdBcpd s ∧ PalAnswered s.objPal .rdOcpd s

/-- R290: `Scale15` in numbers, for all 32768 values. -/
def Obligations.ScaleMultipliesEachChannelByEight : Prop := ∀ raw : Color15, scale15 raw = scaled raw

/-- R292: with auto-increment on and an even index, writing a value low byte then high byte and reading both halves back gives
the value; the index has advanced by 2. -/
def Obligations.PaletteRoundTrip : Prop :=
  ∀ (s : State) (c : Color15) (a : BitVec 6) (x : Bool), s.cfg.colorMode = true → a.getLsbD 0 = false →
    ∃ s1 s2 s3 s4 s5 s6 s7 : State, ∃ lo hi : Byte,
      exec (.wrBcps (0b10#2 ++ a)) s = .next s1 ∧
      exec (.wrBcpd (c.extractLsb' 0 8)) s1 = .next s2 ∧
      exec (.wrBcpd (BitVec.ofBool x ++ c.extractLsb' 8 7)) s2 = .next s3 ∧
      s3.bgPal.index = a + 2#6 ∧ at32 s3.bgPal.raw (a.extractLsb' 1 5) = c ∧
      exec (.wrBcps (0b10#2 ++ a)) s3 = .next s4 ∧ exec .rdBcpd s4 = .next s5 ∧ s5.answer = some lo ∧
      exec (.wrBcps (0b10#2 ++ (a + 1#6))) s5 = .next s6 ∧ exec .rdBcpd s6 = .next s7 ∧ s7.answer = some hi ∧
      hi.extractLsb' 0 7 ++ lo = c

/-! ## Video memory and the tile cache -/

/-- R264, R263: the byte lands in the selected bank (bank 0 in the monochrome variant) and every other byte of video memory is
as before; the row of each tile bank whose two bytes include the written one is decoded from them as they now stand, and no
other row of the tile cache changes: none at all for a byte outside the tile windows. Nothing else changes, in whatever mode.
The tile banks start where the address map puts them (R84); under an admitted layout no row wraps and a low plane is at an
even offset, and the default map gives the numbers of R263; for other layouts the places are DEDUCED (notes/assumptions/7.md). -/
def Obligations.WrVramStoresAndDecodesTheTouchedRow : Prop :=
  ∀ (s : State) (off : VramOffset) (v : Byte), Completes (.wrVram off v) s fun t =>
    let bank : Bank := if s.cfg.colorMode then s.vbk else 0#1
    t = { s with vram := t.vram, tilePx := t.tilePx } ∧
    (∀ (b : Bank) (a : VramOffset), vramRead t b a = if b = bank ∧ a = off then v else vramRead s b a) ∧
    ∀ (b k : Bank) (tile : Byte) (r : BitVec 3),
      let start : VramOffset := if k = 1#1 then s.cfg.map.tile1Off else s.cfg.map.tile0Off
      let p : VramOffset := start + BitVec.ofNat 13 (16 * tile.toNat + 2 * r.toNat)
      (s.cfg.map.layoutWf = true →
        p.toNat = start.toNat + 16 * tile.toNat + 2 * r.toNat ∧ p.toNat % 2 = 0 ∧ p.toNat + 1 < 0x2000) ∧
      ∀ c : BitVec 3, tilePixel t b k tile r c =
        if b = bank ∧ (off = p ∨ off = p + 1#13) then decodePixel (vramRead t b p) (vramRead t b (p + 1#13)) c.toNat
        else tilePixel s b k tile r c

/-- R265: the byte of the selected bank, and nothing changes. -/
def Obligations.RdVramGivesTheSelectedBanksByte : Prop :=
  ∀ (s : State) (off : VramOffset), exec (.rdVram off) s =
    .next { s with answer := some (vramRead s (if s.cfg.colorMode then s.vbk else 0#1) off) }

/-- R266: while the cache is coherent, a lookup reads the tile at `16*idx` past the start of bank "1", and in bank "0" at
`16*((idx + 128) mod 256)` past its start; with the default starts that is `16*idx` in bank "1", and in bank "0"
`0x1000 + 16*idx` for 0..127 and `16*idx` for 128..255. R266 gives the default starts (R84); the places under another layout, and
the wrap in one that is not admitted, are the model's (notes/assumptions/7.md). -/
def Obligations.TileLookupIsSignedInBankZero : Prop :=
  (∀ (s : State), TilesCoherent s → ∀ (b k : Bank) (idx : Byte) (r c : BitVec 3),
    tileLookup s b k idx r c = rawOfBytes s b (tileStart s.cfg.map (k == 1#1) idx) r.toNat c.toNat) ∧
  ∀ (m : AddrMap) (idx : Byte), m.tile1Off = 0x0000#13 → m.tile0Off = 0x0800#13 →
    tileStart m true idx = 16 * idx.toNat ∧
    tileStart m false idx = if idx.toNat < 128 then 0x1000 + 16 * idx.toNat else 16 * idx.toNat

/-! ## The sprite attribute table -/

/-- R303, R300: the byte is stored, every descriptor is decoded afresh from the table, and nothing else changes. -/
def Obligations.WrOamStoresAndRefreshes : Prop :=
  ∀ (s : State) (i : Fin 160) (v : Byte), Completes (.wrOam i v) s fun t =>
    t = { s with oam := t.oam, sprites := t.sprites } ∧
    (∀ j : Nat, oamRead t j = if j = i.val then v else oamRead s j) ∧
    ∀ n : Fin 40, spriteAt t n = {
      y := ((oamRead t (4 * n.val)).toNat : Int) - 16
      x := ((oamRead t (4 * n.val + 1)).toNat : Int) - 8
      tile := if s.lcdc.getLsbD 2 then oamRead t (4 * n.val + 2) &&& 0xFE#8 else oamRead t (4 * n.val + 2)
      opts := oamRead t (4 * n.val + 3) }

/-- R304: the raw byte of the table, and nothing changes. -/
def Obligations.RdOamGivesTheRawByte : Prop :=
  ∀ (s : State) (i : Fin 160), exec (.rdOam i) s = .next { s with answer := some (oamRead s i.val) }

/-! ## Colour-DMA -/

/-- R352, R353, R359: colour variant, no transfer in progress, bit 7 clear: `16*N` bytes are copied at once, the register
shows the sentinel, and nothing else of the block changes but the tile cache. -/
def Obligations.GeneralTransferCopiesAllBlocks : Prop :=
  ∀ (s : State) (v : Byte), s.cfg.colorMode = true → s.hdmaActive = false → v.getLsbD 7 = false →
    Completes (.wrHdma5 v) s fun t =>
      t = { s with vram := t.vram, tilePx := t.tilePx, hdma5 := 0xFF#8, memReads := s.memReads + 16 * (v.toNat % 128 + 1) } ∧
      Copied s t s.vbk (dmaSource s) (dmaDest s) (16 * (v.toNat % 128 + 1))

/-- R352, R354, R357: colour variant, bit 7 set: the pointers are latched, the count stored, the transfer marked in progress,
whether or not one was; nothing is copied. -/
def Obligations.LinkedTransferStartsWithoutCopying : Prop :=
  ∀ (s : State) (v : Byte), s.cfg.colorMode = true → v.getLsbD 7 = true →
    exec (.wrHdma5 v) s = .next { s with
      hdmaSrc := BitVec.ofNat 16 (dmaSource s), hdmaDst := BitVec.ofNat 13 (dmaDest s)
      hdma5 := BitVec.ofNat 8 (v.toNat % 128), hdmaActive := true }

/-- R352, R355: colour variant, a transfer in progress, bit 7 clear: it is cancelled, the remaining count kept under a set bit
7, and nothing is copied or started. -/
def Obligations.ClearBitCancelsTheLinkedTransfer : Prop :=
  ∀ (s : State) (v : Byte), s.cfg.colorMode = true → s.hdmaActive = true → v.getLsbD 7 = false →
    exec (.wrHdma5 v) s = .next { s with hdma5 := BitVec.ofNat 8 (128 + s.hdma5.toNat % 128), hdmaActive := false }

/-- R356, R360, R361: at the tick that enters HBlank a pending transfer copies one block into the bank `VBK` selects then,
both pointers advance by 16, and the count falls by one or the transfer is done. -/
def Obligations.HblankEntryCopiesOneBlock : Prop :=
  ∀ s : State, s.cfg.colorMode = true → s.hdmaActive = true → AtHblankEntry s → Completes (.step 1) s fun t =>
    Copied s t s.vbk s.hdmaSrc.toNat s.hdmaDst.toNat 16 ∧
    t.hdmaSrc = s.hdmaSrc + 16#16 ∧ t.hdmaDst = s.hdmaDst + 16#13 ∧ t.memReads = s.memReads + 16 ∧
    (s.hdma5.toNat % 128 = 0 → t.hdma5 = 0xFF#8 ∧ t.hdmaActive = false) ∧
    (s.hdma5.toNat % 128 ≠ 0 → t.hdma5 = BitVec.ofNat 8 (s.hdma5.toNat % 128 - 1) ∧ t.hdmaActive = true)

/-- R360, R340: a `STEP` of one tick that does not enter HBlank copies no block and composites nothing. -/
def Obligations.OnlyHblankEntryCopiesOrComposites : Prop :=
  ∀ s : State, ¬ AtHblankEntry s → Completes (.step 1) s fun t =>
    t.vram = s.vram ∧ t.tilePx = s.tilePx ∧ t.hdmaSrc = s.hdmaSrc ∧ t.hdmaDst = s.hdmaDst ∧ t.hdma5 = s.hdma5 ∧
    t.hdmaActive = s.hdmaActive ∧ t.memReads = s.memReads ∧ t.frame = s.frame ∧ t.lineColor = s.lineColor ∧
    t.lineRaw = s.lineRaw ∧ t.linePrio = s.linePrio

/-! ## The compositor -/

/-- R310 to R340 as one function: in a state that meets the invariant, the row composited at HBlank entry is, at every column,
the first selected sprite entry in table order that is opaque and wins there, else the window or background pixel, computed
from the registers and memory bytes; no other row changes. Window columns past the 32nd map column (249 to 255 with `WX` 0) wrap
as R322 says, where vector W3 reads otherwise (DEDUCED, notes/assumptions/15.md). The places of tiles and maps under another
layout than the default (R84), and the wrap in one that is not admitted, are the model's (notes/assumptions/7.md). -/
def Obligations.CompositedRowIsThePicture : Prop :=
  ∀ s : State, Inv s → AtHblankEntry s → Completes (.step 1) s fun t =>
    ∀ (y : Fin 144) (x : Byte), framePixel t y x = if y.val = s.ly.toNat then picture s s.ly.toNat x.toNat else framePixel s y x

/-- R340, R342: whatever the state, the tick that enters HBlank rewrites the row of the scanline index and no other. -/
def Obligations.HblankEntryWritesOneRow : Prop :=
  ∀ s : State, AtHblankEntry s → Completes (.step 1) s fun t =>
    ∀ y : Fin 144, t.frame[y] = if y.val = s.ly.toNat then t.lineColor else s.frame[y]

/-- R313, R414: with the background, window and sprite layers off the row is the blank colour in all 256 columns, with raw
index 0, in both variants and whatever the palettes hold. -/
def Obligations.DisabledLayersGiveABlankRow : Prop :=
  ∀ s : State, AtHblankEntry s → s.lcdc.getLsbD 0 = false → s.lcdc.getLsbD 5 = false → s.lcdc.getLsbD 1 = false →
    Completes (.step 1) s fun t => ∀ x : Byte,
      at256 t.lineColor x = s.cfg.blankColor ∧ at256 t.lineRaw x = 0#2 ∧ at256 t.linePrio x = false ∧
      ∀ y : Fin 144, y.val = s.ly.toNat → framePixel t y x = s.cfg.blankColor

/-- R331: the selection is in table order without repeats, has at most 10 entries, all of them covering the scanline, and a
covering entry is left out only when 10 smaller ones cover it. -/
def Obligations.SelectionIsTheFirstTenCovering : Prop :=
  ∀ (s : State) (ly : Byte) (h : Nat),
    let sel := selectSprites s ly h
    let cov := fun n : Fin 40 => (spriteAt s n).y ≤ (ly.toNat : Int) ∧ (ly.toNat : Int) < (spriteAt s n).y + (h : Int)
    sel.Pairwise (fun a b => a.val < b.val) ∧ sel.length ≤ 10 ∧ (∀ n ∈ sel, cov n) ∧
    ∀ n, cov n → n ∉ sel → sel.length = 10 ∧ ∀ m ∈ sel, m.val < n.val

/-- R311: the compositor does not read `VBK`, the `STAT` bits, `LYC` or the colour-DMA registers: with any other values there,
the line buffers and the frame come out the same. -/
def Obligations.CompositorIgnoresBankStatusAndDma : Prop :=
  ∀ (s : State) (ly : Byte) (bank : Bank) (st : StatBits) (lyc h1 h2 h3 h4 h5 : Byte) (act : Bool) (src : BusAddr)
    (dst : VramOffset),
    let s' := { s with vbk := bank, stat := st, lyc := lyc, hdma1 := h1, hdma2 := h2, hdma3 := h3, hdma4 := h4, hdma5 := h5,
                       hdmaActive := act, hdmaSrc := src, hdmaDst := dst }
    (renderLine ly s').frame = (renderLine ly s).frame ∧ (renderLine ly s').lineColor = (renderLine ly s).lineColor ∧
    (renderLine ly s').lineRaw = (renderLine ly s).lineRaw ∧ (renderLine ly s').linePrio = (renderLine ly s).linePrio

/-! ## Mode timing -/

/-- R372: a negative count is the contract violation and has no successor state. -/
def Obligations.NegativeStepIsTheContractViolation : Prop :=
  ∀ (s : State) (n : Int), n < 0 → exec (.step n) s = .fault (.contractViolation .negativeCycleCount)

/-- R160, R173: every count from 0 up completes, and leaves alone every register but `LY`, `STAT.mode`, `STAT.coinc` and `HDMA5`, the
attribute table with its descriptors, the palettes and the monochrome tables, and takes no operation and answers no read. -/
def Obligations.StepCompletesAndLeavesTheRegisters : Prop :=
  ∀ (s : State) (n : Nat), Completes (.step n) s fun t =>
    t = { s with
      ly := t.ly, stat := { s.stat with coinc := t.stat.coinc }, mode := t.mode, lineCycle := t.lineCycle
      displayOn := t.displayOn, hdma5 := t.hdma5, hdmaActive := t.hdmaActive, hdmaSrc := t.hdmaSrc, hdmaDst := t.hdmaDst
      vram := t.vram, tilePx := t.tilePx, lineColor := t.lineColor, lineRaw := t.lineRaw, linePrio := t.linePrio
      frame := t.frame, ifVblank := t.ifVblank, ifStat := t.ifStat, trace := t.trace, memReads := t.memReads }

/-- R160, R390: with the display off and not requested, `STEP n` changes nothing at all. -/
def Obligations.StepWithDisplayOffDoesNothing : Prop :=
  ∀ (s : State) (n : Nat), s.displayOn = false → s.lcdc.getLsbD 7 = false → exec (.step n) s = .next s

/-- R163: a `STEP` that finds the request set and the display off enables it at the first cycle of OAM-search, with its
request; the index and the comparison are left alone. -/
def Obligations.EnableResumesAtOamSearch : Prop :=
  ∀ s : State, s.displayOn = false → s.lcdc.getLsbD 7 = true →
    exec (.step 0) s = .next { s with
      displayOn := true, lineCycle := 0, mode := .oam, ifStat := s.ifStat || s.stat.oamIe
      trace := s.trace ++ (if s.stat.oamIe then [.raise .stat] else []) }

/-- R162: a `STEP` that finds the request clear in VBlank disables the display: index 0, comparison, idle HBlank; none of its
ticks is applied and no HBlank entry action runs. -/
def Obligations.DisableIsHonouredInVblank : Prop :=
  ∀ (s : State) (n : Nat), s.displayOn = true → s.mode = .vblank → s.lcdc.getLsbD 7 = false →
    exec (.step n) s = .next { compared s 0x00#8 s.lyc with displayOn := false, mode := .hblank, lineCycle := 0 }

/-- R168, R161: one tick with the display on moves the sequencer as the transition table says. -/
def Obligations.TickFollowsTheTransitionTable : Prop :=
  ∀ s : State, s.displayOn = true → (s.lcdc.getLsbD 7 = true ∨ s.mode ≠ .vblank) → Completes (.step 1) s fun t =>
    t.displayOn = true ∧ (t.mode, t.lineCycle, t.ly) = nextPosition s.mode s.lineCycle s.ly

/-- R161, R175: a tick that ends no mode and no scanline advances the counter and does nothing else: no request, no
comparison, no picture. -/
def Obligations.InteriorTicksOnlyCount : Prop :=
  ∀ s : State, s.displayOn = true → (s.lcdc.getLsbD 7 = true ∨ s.mode ≠ .vblank) →
    boundaryTick s.mode s.lineCycle = false → exec (.step 1) s = .next { s with lineCycle := s.lineCycle + 1 }

/-- R165: the end of OAM-search enters Pixel-transfer and does nothing else, and no tick inside Pixel-transfer does anything
but count. -/
def Obligations.PixelTransferHasNoEffectOfItsOwn : Prop :=
  ∀ s : State, s.displayOn = true →
    (s.mode = .oam → s.lineCycle = 79 → exec (.step 1) s = .next { s with lineCycle := 80, mode := .xfer }) ∧
    (s.mode = .xfer → s.lineCycle ≠ 251 → exec (.step 1) s = .next { s with lineCycle := s.lineCycle + 1 })

/-- R164, R170, R379: the end of scanlines 0 to 142: the index, the comparison, then OAM-search with its request. -/
def Obligations.VisibleLineWrapEntersOamSearch : Prop :=
  ∀ s : State, s.displayOn = true → s.mode = .hblank → s.lineCycle = 455 → s.ly + 1#8 ≠ 144#8 →
    let u := compared s (s.ly + 1#8) s.lyc
    exec (.step 1) s = .next { u with
      lineCycle := 0, mode := .oam, ifStat := u.ifStat || s.stat.oamIe
      trace := u.trace ++ (if s.stat.oamIe then [.raise .stat] else []) }

/-- R167, R170, R379: the end of scanline 143: the comparison, the VBlank request, the STAT request if enabled, the frame. -/
def Obligations.VblankEntryRaisesAndPresents : Prop :=
  ∀ s : State, s.displayOn = true → s.mode = .hblank → s.lineCycle = 455 → s.ly = 143#8 →
    let u := compared s 144#8 s.lyc
    exec (.step 1) s = .next { u with
      lineCycle := 0, mode := .vblank, ifVblank := true, ifStat := u.ifStat || s.stat.vblankIe
      trace := u.trace ++ [.raise .vblank] ++ (if s.stat.vblankIe then [.raise .stat] else []) ++ [.present s.frame] }

/-- R167, R176: no tick but the one that ends scanline 143 presents a frame or requests VBLANK, nor does the enabling or
disabling of the display. -/
def Obligations.FrameAndVblankRequestOnlyAtVblankEntry : Prop :=
  ∀ s : State, ¬ (s.displayOn = true ∧ s.mode = .hblank ∧ s.lineCycle = 455 ∧ s.ly = 143#8) →
    Completes (.step 1) s fun t =>
      presents t.trace = presents s.trace ∧ raises .vblank t.trace = raises .vblank s.trace ∧ t.ifVblank = s.ifVblank

/-- R171, R172, R379: the end of a vertical-blank scanline: the index and the comparison; at the end of scanline 153 the index
is 0 before the one comparison, and OAM-search is entered with its request. -/
def Obligations.VblankLinesCountToTheFrameWrap : Prop :=
  ∀ s : State, s.displayOn = true → s.lcdc.getLsbD 7 = true → s.mode = .vblank → s.lineCycle = 455 →
    (s.ly + 1#8 ≠ 154#8 → exec (.step 1) s = .next { compared s (s.ly + 1#8) s.lyc with lineCycle := 0 }) ∧
    (s.ly + 1#8 = 154#8 →
      let u := compared s 0x00#8 s.lyc
      exec (.step 1) s = .next { u with
        lineCycle := 0, mode := .oam, ifStat := u.ifStat || s.stat.oamIe
        trace := u.trace ++ (if s.stat.oamIe then [.raise .stat] else []) })

/-- R166, R379: an HBlank entry: the mode, the STAT request if its source is enabled, no other event; and when no transfer is
pending nothing else changes but the line buffers and the frame. -/
def Obligations.HblankEntryRaisesOnceIfEnabled : Prop :=
  ∀ s : State, AtHblankEntry s → Completes (.step 1) s fun t =>
    t.mode = .hblank ∧ t.lineCycle = 252 ∧ t.ly = s.ly ∧ t.stat = s.stat ∧ t.ifVblank = s.ifVblank ∧
    t.ifStat = (s.ifStat || s.stat.hblankIe) ∧ t.trace = s.trace ++ (if s.stat.hblankIe then [.raise .stat] else []) ∧
    (s.cfg.colorMode = false ∨ s.hdmaActive = false → t = { s with
      mode := .hblank, lineCycle := 252, ifStat := t.ifStat, trace := t.trace
      lineColor := t.lineColor, lineRaw := t.lineRaw, linePrio := t.linePrio, frame := t.frame })

/-- R177, R161: from the start of a frame with the display on, the sequencer's position after any number of ticks in one
`STEP`: cycle, scanline and mode are those of the timing table, repeating every 70224 ticks. -/
def Obligations.SequencerPositionInClosedForm : Prop :=
  ∀ (s : State) (n : Nat), FrameStart s → Completes (.step n) s fun t =>
    t.displayOn = true ∧ t.lineCycle = n % 456 ∧ t.ly.toNat = n / 456 % 154 ∧ t.mode = modeAt (n / 456 % 154) (n % 456)

/-- R178, R378: one frame from its start presents once, requests VBLANK once, and requests STAT once per visible scanline and
enabled OAM or HBlank source, once for the VBlank source, and once for the compare source when `LYC` is a scanline. -/
def Obligations.RequestsPerFrame : Prop :=
  ∀ s : State, FrameStart s → s.stat.coinc = (s.ly == s.lyc) → Completes (.step 70224) s fun t =>
    FrameStart t ∧ t.ifVblank = true ∧
    presents t.trace = presents s.trace + 1 ∧
    raises .vblank t.trace = raises .vblank s.trace + 1 ∧
    raises .stat t.trace = raises .stat s.trace + (if s.stat.oamIe then 144 else 0) + (if s.stat.hblankIe then 144 else 0)
      + (if s.stat.vblankIe then 1 else 0) + (if s.stat.lycIe ∧ s.lyc.toNat ≤ 153 then 1 else 0)

/-- R179: two `STEP`s are one with the sum of their counts, unless the second would find a clear request in VBlank. -/
def Obligations.StepsAddUp : Prop :=
  ∀ (s : State) (a b : Nat), Completes (.step a) s fun t =>
    (s.lcdc.getLsbD 7 = true ∨ t.displayOn = false ∨ t.mode ≠ .vblank) → exec (.step b) t = exec (.step (a + b : Nat)) s

/-! ## Reset -/

/-- R410, R60: `RESET` gives every piece of the block's state the value of the table, whatever went before; the parameters,
the pending flags and the output are as they were. -/
def Obligations.ResetGivesTheTableOfValues : Prop :=
  ∀ s : State, Completes .reset s fun t =>
    (t.lcdc = 0#8 ∧ t.scy = 0#8 ∧ t.scx = 0#8 ∧ t.ly = 0#8 ∧ t.lyc = 0#8 ∧ t.bgp = 0#8 ∧ t.obp0 = 0#8 ∧ t.obp1 = 0#8 ∧
      t.wy = 0#8 ∧ t.wx = 0#8 ∧ t.vbk = 0#1 ∧ t.hdma1 = 0#8 ∧ t.hdma2 = 0#8 ∧ t.hdma3 = 0#8 ∧ t.hdma4 = 0#8 ∧
      t.hdma5 = 0xFF#8) ∧
    t.stat = ⟨false, false, false, false, true⟩ ∧
    (t.mode = .hblank ∧ t.lineCycle = 0 ∧ t.displayOn = false) ∧
    (t.hdmaActive = false ∧ t.hdmaSrc = 0#16 ∧ t.hdmaDst = 0#13) ∧
    (∀ b a, vramRead t b a = 0#8) ∧ (∀ i, oamRead t i = 0#8) ∧ (∀ b k tl r c, tilePixel t b k tl r c = 0#2) ∧
    (∀ n, spriteAt t n = ⟨-16, -8, 0#8, 0#8⟩) ∧
    (∀ i, at4 t.bgShade i = 0#2 ∧ at4 t.objShade0 i = 0#2 ∧ at4 t.objShade1 i = 0#2) ∧
    (∀ e, at32 t.bgPal.raw e = 0#15 ∧ at32 t.bgPal.rgb e = 0#24 ∧ at32 t.objPal.raw e = 0#15 ∧ at32 t.objPal.rgb e = 0#24) ∧
    (t.bgPal.index = 0#6 ∧ t.bgPal.autoInc = false ∧ t.objPal.index = 0#6 ∧ t.objPal.autoInc = false) ∧
    (∀ x, at256 t.lineColor x = 0#24 ∧ at256 t.lineRaw x = 0#2 ∧ at256 t.linePrio x = false) ∧
    (∀ y x, framePixel t y x = 0#24) ∧
    (t.cfg = s.cfg ∧ t.ifVblank = s.ifVblank ∧ t.ifStat = s.ifStat ∧ t.trace = s.trace ∧ t.pending = s.pending ∧
      t.answer = s.answer ∧ t.unspecDraws = s.unspecDraws ∧ t.memReads = s.memReads ∧ t.extMem = s.extMem)

/-! ## Whole-machine rules -/

/-- R90: no `RD` changes any state of the block: only the answer and the count of free draws move. -/
def Obligations.ReadsHaveNoSideEffects : Prop :=
  ∀ (i : Instr) (s : State), isRead i = true → Completes i s fun t =>
    t = { s with answer := t.answer, unspecDraws := t.unspecDraws }

/-- R431, R96, R173, R340: only `STEP` and `RESET` move the sequencer and write the picture: any other operation, in whatever
mode, leaves the mode, the cycle, the display and the frame as they are, and only `WR LY` writes the scanline index. -/
def Obligations.OnlyStepMovesTheSequencerAndThePicture : Prop :=
  ∀ (i : Instr) (s : State), isStep i = false → i ≠ .reset → Completes i s fun t =>
    t.mode = s.mode ∧ t.lineCycle = s.lineCycle ∧ t.displayOn = s.displayOn ∧
    t.frame = s.frame ∧ t.lineColor = s.lineColor ∧ t.lineRaw = s.lineRaw ∧ t.linePrio = s.linePrio ∧
    ((∀ v, i ≠ .wrLy v) → t.ly = s.ly)

/-- R374, R375, R377: the block only sets the pending flags, and requests and frames come out only of `STEP`, `WR LY` and
`WR LYC`; the output trace only grows. -/
def Obligations.RequestsAreOnlyEverSet : Prop :=
  ∀ (i : Instr) (s t : State), exec i s = .next t →
    (s.ifVblank = true → t.ifVblank = true) ∧ (s.ifStat = true → t.ifStat = true) ∧ (∃ new, t.trace = s.trace ++ new) ∧
    (mayRaise i = false → t.ifVblank = s.ifVblank ∧ t.ifStat = s.ifStat ∧ t.trace = s.trace)

/-- R8, R410: no step changes the parameters of the instance. -/
def Obligations.ParametersNeverChange : Prop :=
  ∀ s t : State, step s = .next t → t.cfg = s.cfg

/-- R61, R49, R50, R52, R54, R57: every step keeps the invariant: the sequencer position in the timing table, the coincidence
bit true, the caches and tables coherent with their sources, the in-progress bit of `HDMA5` true, the stores canonical. Where the
tiles lie under another layout than the default is the model's (notes/assumptions/7.md), and the history of R61 (f) and (j) is
left out (notes/assumptions/16.md). -/
def Obligations.EveryStepKeepsTheInvariant : Prop :=
  ∀ s t : State, Inv s → step s = .next t → Inv t

/-- R411: the reset state meets the invariant. -/
def Obligations.ResetStateMeetsTheInvariant : Prop := Inv State.reset
end

