-- ==== Sys2Proof/Laws/State.lean ====
section
/-! SUPPORT. What each named update of `State` writes and what it leaves: for each update one lemma that gives every field it
does not write, and one lemma for each field it writes, so that no later proof unfolds a record update. -/

namespace Sys2Proof.Machine

@[simp] theorem vramStore_keeps (b : Bank) (a : VramOffset) (v : Byte) (s : State) :
    (vramStore b a v s).cfg = s.cfg ∧ (vramStore b a v s).lcdc = s.lcdc ∧ (vramStore b a v s).stat = s.stat ∧
    (vramStore b a v s).scy = s.scy ∧ (vramStore b a v s).scx = s.scx ∧ (vramStore b a v s).ly = s.ly ∧
    (vramStore b a v s).lyc = s.lyc ∧ (vramStore b a v s).bgp = s.bgp ∧ (vramStore b a v s).obp0 = s.obp0 ∧
    (vramStore b a v s).obp1 = s.obp1 ∧ (vramStore b a v s).wy = s.wy ∧ (vramStore b a v s).wx = s.wx ∧
    (vramStore b a v s).vbk = s.vbk ∧ (vramStore b a v s).hdma1 = s.hdma1 ∧ (vramStore b a v s).hdma2 = s.hdma2 ∧
    (vramStore b a v s).hdma3 = s.hdma3 ∧ (vramStore b a v s).hdma4 = s.hdma4 ∧ (vramStore b a v s).hdma5 = s.hdma5 ∧
    (vramStore b a v s).bgPal = s.bgPal ∧ (vramStore b a v s).objPal = s.objPal ∧ (vramStore b a v s).mode = s.mode ∧
    (vramStore b a v s).lineCycle = s.lineCycle ∧ (vramStore b a v s).displayOn = s.displayOn ∧
    (vramStore b a v s).oam = s.oam ∧ (vramStore b a v s).tilePx = s.tilePx ∧
    (vramStore b a v s).bgShade = s.bgShade ∧ (vramStore b a v s).objShade0 = s.objShade0 ∧
    (vramStore b a v s).objShade1 = s.objShade1 ∧ (vramStore b a v s).sprites = s.sprites ∧
    (vramStore b a v s).lineColor = s.lineColor ∧ (vramStore b a v s).lineRaw = s.lineRaw ∧
    (vramStore b a v s).linePrio = s.linePrio ∧ (vramStore b a v s).frame = s.frame ∧
    (vramStore b a v s).hdmaActive = s.hdmaActive ∧ (vramStore b a v s).hdmaSrc = s.hdmaSrc ∧
    (vramStore b a v s).hdmaDst = s.hdmaDst ∧ (vramStore b a v s).ifVblank = s.ifVblank ∧
    (vramStore b a v s).ifStat = s.ifStat ∧ (vramStore b a v s).pending = s.pending ∧
    (vramStore b a v s).answer = s.answer ∧ (vramStore b a v s).trace = s.trace ∧
    (vramStore b a v s).unspecDraws = s.unspecDraws ∧ (vramStore b a v s).memReads = s.memReads ∧
    (vramStore b a v s).extMem = s.extMem := ⟨
    rfl, rfl, rfl, rfl, rfl, rfl, rfl, rfl, rfl, rfl, rfl, rfl, rfl, rfl, rfl, rfl, rfl, rfl, rfl, rfl, rfl, rfl,
    rfl, rfl, rfl, rfl, rfl, rfl, rfl, rfl, rfl, rfl, rfl, rfl, rfl, rfl, rfl, rfl, rfl, rfl, rfl, rfl, rfl, rfl⟩

@[simp] theorem vramStore_vram (b : Bank) (a : VramOffset) (v : Byte) (s : State) : (vramStore b a v s).vram = storeWrite Memory.unlisted s.vram (vramKey b a) v := rfl

@[simp] theorem tileStore_keeps (b k : Bank) (t : Byte) (r : BitVec 3) (row : PixelRow) (s : State) :
    (tileStore b k t r row s).cfg = s.cfg ∧ (tileStore b k t r row s).lcdc = s.lcdc ∧
    (tileStore b k t r row s).stat = s.stat ∧ (tileStore b k t r row s).scy = s.scy ∧
    (tileStore b k t r row s).scx = s.scx ∧ (tileStore b k t r row s).ly = s.ly ∧
    (tileStore b k t r row s).lyc = s.lyc ∧ (tileStore b k t r row s).bgp = s.bgp ∧
    (tileStore b k t r row s).obp0 = s.obp0 ∧ (tileStore b k t r row s).obp1 = s.obp1 ∧
    (tileStore b k t r row s).wy = s.wy ∧ (tileStore b k t r row s).wx = s.wx ∧
    (tileStore b k t r row s).vbk = s.vbk ∧ (tileStore b k t r row s).hdma1 = s.hdma1 ∧
    (tileStore b k t r row s).hdma2 = s.hdma2 ∧ (tileStore b k t r row s).hdma3 = s.hdma3 ∧
    (tileStore b k t r row s).hdma4 = s.hdma4 ∧ (tileStore b k t r row s).hdma5 = s.hdma5 ∧
    (tileStore b k t r row s).bgPal = s.bgPal ∧ (tileStore b k t r row s).objPal = s.objPal ∧
    (tileStore b k t r row s).mode = s.mode ∧ (tileStore b k t r row s).lineCycle = s.lineCycle ∧
    (tileStore b k t r row s).displayOn = s.displayOn ∧ (tileStore b k t r row s).vram = s.vram ∧
    (tileStore b k t r row s).oam = s.oam ∧ (tileStore b k t r row s).bgShade = s.bgShade ∧
    (tileStore b k t r row s).objShade0 = s.objShade0 ∧ (tileStore b k t r row s).objShade1 = s.objShade1 ∧
    (tileStore b k t r row s).sprites = s.sprites ∧ (tileStore b k t r row s).lineColor = s.lineColor ∧
    (tileStore b k t r row s).lineRaw = s.lineRaw ∧ (tileStore b k t r row s).linePrio = s.linePrio ∧
    (tileStore b k t r row s).frame = s.frame ∧ (tileStore b k t r row s).hdmaActive = s.hdmaActive ∧
    (tileStore b k t r row s).hdmaSrc = s.hdmaSrc ∧ (tileStore b k t r row s).hdmaDst = s.hdmaDst ∧
    (tileStore b k t r row s).ifVblank = s.ifVblank ∧ (tileStore b k t r row s).ifStat = s.ifStat ∧
    (tileStore b k t r row s).pending = s.pending ∧ (tileStore b k t r row s).answer = s.answer ∧
    (tileStore b k t r row s).trace = s.trace ∧ (tileStore b k t r row s).unspecDraws = s.unspecDraws ∧
    (tileStore b k t r row s).memReads = s.memReads ∧ (tileStore b k t r row s).extMem = s.extMem := ⟨
    rfl, rfl, rfl, rfl, rfl, rfl, rfl, rfl, rfl, rfl, rfl, rfl, rfl, rfl, rfl, rfl, rfl, rfl, rfl, rfl, rfl, rfl,
    rfl, rfl, rfl, rfl, rfl, rfl, rfl, rfl, rfl, rfl, rfl, rfl, rfl, rfl, rfl, rfl, rfl, rfl, rfl, rfl, rfl, rfl⟩

@[simp] theorem tileStore_tilePx (b k : Bank) (t : Byte) (r : BitVec 3) (row : PixelRow) (s : State) : (tileStore b k t r row s).tilePx = storeWrite blankRow s.tilePx (tileKey b k t r) row := rfl

@[simp] theorem oamStore_keeps (i : Nat) (v : Byte) (s : State) :
    (oamStore i v s).cfg = s.cfg ∧ (oamStore i v s).lcdc = s.lcdc ∧ (oamStore i v s).stat = s.stat ∧
    (oamStore i v s).scy = s.scy ∧ (oamStore i v s).scx = s.scx ∧ (oamStore i v s).ly = s.ly ∧
    (oamStore i v s).lyc = s.lyc ∧ (oamStore i v s).bgp = s.bgp ∧ (oamStore i v s).obp0 = s.obp0 ∧
    (oamStore i v s).obp1 = s.obp1 ∧ (oamStore i v s).wy = s.wy ∧ (oamStore i v s).wx = s.wx ∧
    (oamStore i v s).vbk = s.vbk ∧ (oamStore i v s).hdma1 = s.hdma1 ∧ (oamStore i v s).hdma2 = s.hdma2 ∧
    (oamStore i v s).hdma3 = s.hdma3 ∧ (oamStore i v s).hdma4 = s.hdma4 ∧ (oamStore i v s).hdma5 = s.hdma5 ∧
    (oamStore i v s).bgPal = s.bgPal ∧ (oamStore i v s).objPal = s.objPal ∧ (oamStore i v s).mode = s.mode ∧
    (oamStore i v s).lineCycle = s.lineCycle ∧ (oamStore i v s).displayOn = s.displayOn ∧
    (oamStore i v s).vram = s.vram ∧ (oamStore i v s).tilePx = s.tilePx ∧ (oamStore i v s).bgShade = s.bgShade ∧
    (oamStore i v s).objShade0 = s.objShade0 ∧ (oamStore i v s).objShade1 = s.objShade1 ∧
    (oamStore i v s).sprites = s.sprites ∧ (oamStore i v s).lineColor = s.lineColor ∧
    (oamStore i v s).lineRaw = s.lineRaw ∧ (oamStore i v s).linePrio = s.linePrio ∧
    (oamStore i v s).frame = s.frame ∧ (oamStore i v s).hdmaActive = s.hdmaActive ∧
    (oamStore i v s).hdmaSrc = s.hdmaSrc ∧ (oamStore i v s).hdmaDst = s.hdmaDst ∧
    (oamStore i v s).ifVblank = s.ifVblank ∧ (oamStore i v s).ifStat = s.ifStat ∧
    (oamStore i v s).pending = s.pending ∧ (oamStore i v s).answer = s.answer ∧ (oamStore i v s).trace = s.trace ∧
    (oamStore i v s).unspecDraws = s.unspecDraws ∧ (oamStore i v s).memReads = s.memReads ∧
    (oamStore i v s).extMem = s.extMem := ⟨
    rfl, rfl, rfl, rfl, rfl, rfl, rfl, rfl, rfl, rfl, rfl, rfl, rfl, rfl, rfl, rfl, rfl, rfl, rfl, rfl, rfl, rfl,
    rfl, rfl, rfl, rfl, rfl, rfl, rfl, rfl, rfl, rfl, rfl, rfl, rfl, rfl, rfl, rfl, rfl, rfl, rfl, rfl, rfl, rfl⟩

@[simp] theorem oamStore_oam (i : Nat) (v : Byte) (s : State) : (oamStore i v s).oam = storeWrite Memory.unlisted s.oam i v := rfl

@[simp] theorem refreshSprites_keeps (s : State) :
    (refreshSprites s).cfg = s.cfg ∧ (refreshSprites s).lcdc = s.lcdc ∧ (refreshSprites s).stat = s.stat ∧
    (refreshSprites s).scy = s.scy ∧ (refreshSprites s).scx = s.scx ∧ (refreshSprites s).ly = s.ly ∧
    (refreshSprites s).lyc = s.lyc ∧ (refreshSprites s).bgp = s.bgp ∧ (refreshSprites s).obp0 = s.obp0 ∧
    (refreshSprites s).obp1 = s.obp1 ∧ (refreshSprites s).wy = s.wy ∧ (refreshSprites s).wx = s.wx ∧
    (refreshSprites s).vbk = s.vbk ∧ (refreshSprites s).hdma1 = s.hdma1 ∧ (refreshSprites s).hdma2 = s.hdma2 ∧
    (refreshSprites s).hdma3 = s.hdma3 ∧ (refreshSprites s).hdma4 = s.hdma4 ∧ (refreshSprites s).hdma5 = s.hdma5 ∧
    (refreshSprites s).bgPal = s.bgPal ∧ (refreshSprites s).objPal = s.objPal ∧ (refreshSprites s).mode = s.mode ∧
    (refreshSprites s).lineCycle = s.lineCycle ∧ (refreshSprites s).displayOn = s.displayOn ∧
    (refreshSprites s).vram = s.vram ∧ (refreshSprites s).oam = s.oam ∧ (refreshSprites s).tilePx = s.tilePx ∧
    (refreshSprites s).bgShade = s.bgShade ∧ (refreshSprites s).objShade0 = s.objShade0 ∧
    (refreshSprites s).objShade1 = s.objShade1 ∧ (refreshSprites s).lineColor = s.lineColor ∧
    (refreshSprites s).lineRaw = s.lineRaw ∧ (refreshSprites s).linePrio = s.linePrio ∧
    (refreshSprites s).frame = s.frame ∧ (refreshSprites s).hdmaActive = s.hdmaActive ∧
    (refreshSprites s).hdmaSrc = s.hdmaSrc ∧ (refreshSprites s).hdmaDst = s.hdmaDst ∧
    (refreshSprites s).ifVblank = s.ifVblank ∧ (refreshSprites s).ifStat = s.ifStat ∧
    (refreshSprites s).pending = s.pending ∧ (refreshSprites s).answer = s.answer ∧
    (refreshSprites s).trace = s.trace ∧ (refreshSprites s).unspecDraws = s.unspecDraws ∧
    (refreshSprites s).memReads = s.memReads ∧ (refreshSprites s).extMem = s.extMem := ⟨
    rfl, rfl, rfl, rfl, rfl, rfl, rfl, rfl, rfl, rfl, rfl, rfl, rfl, rfl, rfl, rfl, rfl, rfl, rfl, rfl, rfl, rfl,
    rfl, rfl, rfl, rfl, rfl, rfl, rfl, rfl, rfl, rfl, rfl, rfl, rfl, rfl, rfl, rfl, rfl, rfl, rfl, rfl, rfl, rfl⟩

@[simp] theorem refreshSprites_sprites (s : State) : (refreshSprites s).sprites = tabulate 40 (spriteOf s) := rfl

@[simp] theorem present_keeps (s : State) :
    (present s).cfg = s.cfg ∧ (present s).lcdc = s.lcdc ∧ (present s).stat = s.stat ∧ (present s).scy = s.scy ∧
    (present s).scx = s.scx ∧ (present s).ly = s.ly ∧ (present s).lyc = s.lyc ∧ (present s).bgp = s.bgp ∧
    (present s).obp0 = s.obp0 ∧ (present s).obp1 = s.obp1 ∧ (present s).wy = s.wy ∧ (present s).wx = s.wx ∧
    (present s).vbk = s.vbk ∧ (present s).hdma1 = s.hdma1 ∧ (present s).hdma2 = s.hdma2 ∧
    (present s).hdma3 = s.hdma3 ∧ (present s).hdma4 = s.hdma4 ∧ (present s).hdma5 = s.hdma5 ∧
    (present s).bgPal = s.bgPal ∧ (present s).objPal = s.objPal ∧ (present s).mode = s.mode ∧
    (present s).lineCycle = s.lineCycle ∧ (present s).displayOn = s.displayOn ∧ (present s).vram = s.vram ∧
    (present s).oam = s.oam ∧ (present s).tilePx = s.tilePx ∧ (present s).bgShade = s.bgShade ∧
    (present s).objShade0 = s.objShade0 ∧ (present s).objShade1 = s.objShade1 ∧ (present s).sprites = s.sprites ∧
    (present s).lineColor = s.lineColor ∧ (present s).lineRaw = s.lineRaw ∧ (present s).linePrio = s.linePrio ∧
    (present s).frame = s.frame ∧ (present s).hdmaActive = s.hdmaActive ∧ (present s).hdmaSrc = s.hdmaSrc ∧
    (present s).hdmaDst = s.hdmaDst ∧ (present s).ifVblank = s.ifVblank ∧ (present s).ifStat = s.ifStat ∧
    (present s).pending = s.pending ∧ (present s).answer = s.answer ∧ (present s).unspecDraws = s.unspecDraws ∧
    (present s).memReads = s.memReads ∧ (present s).extMem = s.extMem := ⟨
    rfl, rfl, rfl, rfl, rfl, rfl, rfl, rfl, rfl, rfl, rfl, rfl, rfl, rfl, rfl, rfl, rfl, rfl, rfl, rfl, rfl, rfl,
    rfl, rfl, rfl, rfl, rfl, rfl, rfl, rfl, rfl, rfl, rfl, rfl, rfl, rfl, rfl, rfl, rfl, rfl, rfl, rfl, rfl, rfl⟩

@[simp] theorem present_trace (s : State) : (present s).trace = s.trace ++ [.present s.frame] := rfl

@[simp] theorem answerByte_keeps (v : Byte) (s : State) :
    (answerByte v s).cfg = s.cfg ∧ (answerByte v s).lcdc = s.lcdc ∧ (answerByte v s).stat = s.stat ∧
    (answerByte v s).scy = s.scy ∧ (answerByte v s).scx = s.scx ∧ (answerByte v s).ly = s.ly ∧
    (answerByte v s).lyc = s.lyc ∧ (answerByte v s).bgp = s.bgp ∧ (answerByte v s).obp0 = s.obp0 ∧
    (answerByte v s).obp1 = s.obp1 ∧ (answerByte v s).wy = s.wy ∧ (answerByte v s).wx = s.wx ∧
    (answerByte v s).vbk = s.vbk ∧ (answerByte v s).hdma1 = s.hdma1 ∧ (answerByte v s).hdma2 = s.hdma2 ∧
    (answerByte v s).hdma3 = s.hdma3 ∧ (answerByte v s).hdma4 = s.hdma4 ∧ (answerByte v s).hdma5 = s.hdma5 ∧
    (answerByte v s).bgPal = s.bgPal ∧ (answerByte v s).objPal = s.objPal ∧ (answerByte v s).mode = s.mode ∧
    (answerByte v s).lineCycle = s.lineCycle ∧ (answerByte v s).displayOn = s.displayOn ∧
    (answerByte v s).vram = s.vram ∧ (answerByte v s).oam = s.oam ∧ (answerByte v s).tilePx = s.tilePx ∧
    (answerByte v s).bgShade = s.bgShade ∧ (answerByte v s).objShade0 = s.objShade0 ∧
    (answerByte v s).objShade1 = s.objShade1 ∧ (answerByte v s).sprites = s.sprites ∧
    (answerByte v s).lineColor = s.lineColor ∧ (answerByte v s).lineRaw = s.lineRaw ∧
    (answerByte v s).linePrio = s.linePrio ∧ (answerByte v s).frame = s.frame ∧
    (answerByte v s).hdmaActive = s.hdmaActive ∧ (answerByte v s).hdmaSrc = s.hdmaSrc ∧
    (answerByte v s).hdmaDst = s.hdmaDst ∧ (answerByte v s).ifVblank = s.ifVblank ∧
    (answerByte v s).ifStat = s.ifStat ∧ (answerByte v s).pending = s.pending ∧ (answerByte v s).trace = s.trace ∧
    (answerByte v s).unspecDraws = s.unspecDraws ∧ (answerByte v s).memReads = s.memReads ∧
    (answerByte v s).extMem = s.extMem := ⟨
    rfl, rfl, rfl, rfl, rfl, rfl, rfl, rfl, rfl, rfl, rfl, rfl, rfl, rfl, rfl, rfl, rfl, rfl, rfl, rfl, rfl, rfl,
    rfl, rfl, rfl, rfl, rfl, rfl, rfl, rfl, rfl, rfl, rfl, rfl, rfl, rfl, rfl, rfl, rfl, rfl, rfl, rfl, rfl, rfl⟩

@[simp] theorem answerByte_answer (v : Byte) (s : State) : (answerByte v s).answer = some v := rfl

@[simp] theorem answerNone_keeps (s : State) :
    (answerNone s).cfg = s.cfg ∧ (answerNone s).lcdc = s.lcdc ∧ (answerNone s).stat = s.stat ∧
    (answerNone s).scy = s.scy ∧ (answerNone s).scx = s.scx ∧ (answerNone s).ly = s.ly ∧ (answerNone s).lyc = s.lyc ∧
    (answerNone s).bgp = s.bgp ∧ (answerNone s).obp0 = s.obp0 ∧ (answerNone s).obp1 = s.obp1 ∧
    (answerNone s).wy = s.wy ∧ (answerNone s).wx = s.wx ∧ (answerNone s).vbk = s.vbk ∧
    (answerNone s).hdma1 = s.hdma1 ∧ (answerNone s).hdma2 = s.hdma2 ∧ (answerNone s).hdma3 = s.hdma3 ∧
    (answerNone s).hdma4 = s.hdma4 ∧ (answerNone s).hdma5 = s.hdma5 ∧ (answerNone s).bgPal = s.bgPal ∧
    (answerNone s).objPal = s.objPal ∧ (answerNone s).mode = s.mode ∧ (answerNone s).lineCycle = s.lineCycle ∧
    (answerNone s).displayOn = s.displayOn ∧ (answerNone s).vram = s.vram ∧ (answerNone s).oam = s.oam ∧
    (answerNone s).tilePx = s.tilePx ∧ (answerNone s).bgShade = s.bgShade ∧ (answerNone s).objShade0 = s.objShade0 ∧
    (answerNone s).objShade1 = s.objShade1 ∧ (answerNone s).sprites = s.sprites ∧
    (answerNone s).lineColor = s.lineColor ∧ (answerNone s).lineRaw = s.lineRaw ∧
    (answerNone s).linePrio = s.linePrio ∧ (answerNone s).frame = s.frame ∧
    (answerNone s).hdmaActive = s.hdmaActive ∧ (answerNone s).hdmaSrc = s.hdmaSrc ∧
    (answerNone s).hdmaDst = s.hdmaDst ∧ (answerNone s).ifVblank = s.ifVblank ∧ (answerNone s).ifStat = s.ifStat ∧
    (answerNone s).pending = s.pending ∧ (answerNone s).trace = s.trace ∧
    (answerNone s).unspecDraws = s.unspecDraws ∧ (answerNone s).memReads = s.memReads ∧
    (answerNone s).extMem = s.extMem := ⟨
    rfl, rfl, rfl, rfl, rfl, rfl, rfl, rfl, rfl, rfl, rfl, rfl, rfl, rfl, rfl, rfl, rfl, rfl, rfl, rfl, rfl, rfl,
    rfl, rfl, rfl, rfl, rfl, rfl, rfl, rfl, rfl, rfl, rfl, rfl, rfl, rfl, rfl, rfl, rfl, rfl, rfl, rfl, rfl, rfl⟩

@[simp] theorem answerNone_answer (s : State) : (answerNone s).answer = none := rfl

@[simp] theorem answerDraw_keeps (f : Byte → Byte) (s : State) :
    (answerDraw f s).cfg = s.cfg ∧ (answerDraw f s).lcdc = s.lcdc ∧ (answerDraw f s).stat = s.stat ∧
    (answerDraw f s).scy = s.scy ∧ (answerDraw f s).scx = s.scx ∧ (answerDraw f s).ly = s.ly ∧
    (answerDraw f s).lyc = s.lyc ∧ (answerDraw f s).bgp = s.bgp ∧ (answerDraw f s).obp0 = s.obp0 ∧
    (answerDraw f s).obp1 = s.obp1 ∧ (answerDraw f s).wy = s.wy ∧ (answerDraw f s).wx = s.wx ∧
    (answerDraw f s).vbk = s.vbk ∧ (answerDraw f s).hdma1 = s.hdma1 ∧ (answerDraw f s).hdma2 = s.hdma2 ∧
    (answerDraw f s).hdma3 = s.hdma3 ∧ (answerDraw f s).hdma4 = s.hdma4 ∧ (answerDraw f s).hdma5 = s.hdma5 ∧
    (answerDraw f s).bgPal = s.bgPal ∧ (answerDraw f s).objPal = s.objPal ∧ (answerDraw f s).mode = s.mode ∧
    (answerDraw f s).lineCycle = s.lineCycle ∧ (answerDraw f s).displayOn = s.displayOn ∧
    (answerDraw f s).vram = s.vram ∧ (answerDraw f s).oam = s.oam ∧ (answerDraw f s).tilePx = s.tilePx ∧
    (answerDraw f s).bgShade = s.bgShade ∧ (answerDraw f s).objShade0 = s.objShade0 ∧
    (answerDraw f s).objShade1 = s.objShade1 ∧ (answerDraw f s).sprites = s.sprites ∧
    (answerDraw f s).lineColor = s.lineColor ∧ (answerDraw f s).lineRaw = s.lineRaw ∧
    (answerDraw f s).linePrio = s.linePrio ∧ (answerDraw f s).frame = s.frame ∧
    (answerDraw f s).hdmaActive = s.hdmaActive ∧ (answerDraw f s).hdmaSrc = s.hdmaSrc ∧
    (answerDraw f s).hdmaDst = s.hdmaDst ∧ (answerDraw f s).ifVblank = s.ifVblank ∧
    (answerDraw f s).ifStat = s.ifStat ∧ (answerDraw f s).pending = s.pending ∧ (answerDraw f s).trace = s.trace ∧
    (answerDraw f s).memReads = s.memReads ∧ (answerDraw f s).extMem = s.extMem := ⟨
    rfl, rfl, rfl, rfl, rfl, rfl, rfl, rfl, rfl, rfl, rfl, rfl, rfl, rfl, rfl, rfl, rfl, rfl, rfl, rfl, rfl, rfl,
    rfl, rfl, rfl, rfl, rfl, rfl, rfl, rfl, rfl, rfl, rfl, rfl, rfl, rfl, rfl, rfl, rfl, rfl, rfl, rfl, rfl⟩

@[simp] theorem answerDraw_answer (f : Byte → Byte) (s : State) : (answerDraw f s).answer = some (f (Config.unspec s.unspecDraws)) := rfl

@[simp] theorem answerDraw_unspecDraws (f : Byte → Byte) (s : State) : (answerDraw f s).unspecDraws = s.unspecDraws + 1 := rfl

@[simp] theorem setStatEnables_keeps (v : Byte) (s : State) :
    (setStatEnables v s).cfg = s.cfg ∧ (setStatEnables v s).lcdc = s.lcdc ∧ (setStatEnables v s).scy = s.scy ∧
    (setStatEnables v s).scx = s.scx ∧ (setStatEnables v s).ly = s.ly ∧ (setStatEnables v s).lyc = s.lyc ∧
    (setStatEnables v s).bgp = s.bgp ∧ (setStatEnables v s).obp0 = s.obp0 ∧ (setStatEnables v s).obp1 = s.obp1 ∧
    (setStatEnables v s).wy = s.wy ∧ (setStatEnables v s).wx = s.wx ∧ (setStatEnables v s).vbk = s.vbk ∧
    (setStatEnables v s).hdma1 = s.hdma1 ∧ (setStatEnables v s).hdma2 = s.hdma2 ∧
    (setStatEnables v s).hdma3 = s.hdma3 ∧ (setStatEnables v s).hdma4 = s.hdma4 ∧
    (setStatEnables v s).hdma5 = s.hdma5 ∧ (setStatEnables v s).bgPal = s.bgPal ∧
    (setStatEnables v s).objPal = s.objPal ∧ (setStatEnables v s).mode = s.mode ∧
    (setStatEnables v s).lineCycle = s.lineCycle ∧ (setStatEnables v s).displayOn = s.displayOn ∧
    (setStatEnables v s).vram = s.vram ∧ (setStatEnables v s).oam = s.oam ∧ (setStatEnables v s).tilePx = s.tilePx ∧
    (setStatEnables v s).bgShade = s.bgShade ∧ (setStatEnables v s).objShade0 = s.objShade0 ∧
    (setStatEnables v s).objShade1 = s.objShade1 ∧ (setStatEnables v s).sprites = s.sprites ∧
    (setStatEnables v s).lineColor = s.lineColor ∧ (setStatEnables v s).lineRaw = s.lineRaw ∧
    (setStatEnables v s).linePrio = s.linePrio ∧ (setStatEnables v s).frame = s.frame ∧
    (setStatEnables v s).hdmaActive = s.hdmaActive ∧ (setStatEnables v s).hdmaSrc = s.hdmaSrc ∧
    (setStatEnables v s).hdmaDst = s.hdmaDst ∧ (setStatEnables v s).ifVblank = s.ifVblank ∧
    (setStatEnables v s).ifStat = s.ifStat ∧ (setStatEnables v s).pending = s.pending ∧
    (setStatEnables v s).answer = s.answer ∧ (setStatEnables v s).trace = s.trace ∧
    (setStatEnables v s).unspecDraws = s.unspecDraws ∧ (setStatEnables v s).memReads = s.memReads ∧
    (setStatEnables v s).extMem = s.extMem := ⟨
    rfl, rfl, rfl, rfl, rfl, rfl, rfl, rfl, rfl, rfl, rfl, rfl, rfl, rfl, rfl, rfl, rfl, rfl, rfl, rfl, rfl, rfl,
    rfl, rfl, rfl, rfl, rfl, rfl, rfl, rfl, rfl, rfl, rfl, rfl, rfl, rfl, rfl, rfl, rfl, rfl, rfl, rfl, rfl, rfl⟩

@[simp] theorem setStatEnables_stat (v : Byte) (s : State) : (setStatEnables v s).stat = { s.stat with
    hblankIe := v.getLsbD 3, vblankIe := v.getLsbD 4, oamIe := v.getLsbD 5, lycIe := v.getLsbD 6 } := rfl

@[simp] theorem setCoinc_keeps (c : Bool) (s : State) :
    (setCoinc c s).cfg = s.cfg ∧ (setCoinc c s).lcdc = s.lcdc ∧ (setCoinc c s).scy = s.scy ∧
    (setCoinc c s).scx = s.scx ∧ (setCoinc c s).ly = s.ly ∧ (setCoinc c s).lyc = s.lyc ∧ (setCoinc c s).bgp = s.bgp ∧
    (setCoinc c s).obp0 = s.obp0 ∧ (setCoinc c s).obp1 = s.obp1 ∧ (setCoinc c s).wy = s.wy ∧
    (setCoinc c s).wx = s.wx ∧ (setCoinc c s).vbk = s.vbk ∧ (setCoinc c s).hdma1 = s.hdma1 ∧
    (setCoinc c s).hdma2 = s.hdma2 ∧ (setCoinc c s).hdma3 = s.hdma3 ∧ (setCoinc c s).hdma4 = s.hdma4 ∧
    (setCoinc c s).hdma5 = s.hdma5 ∧ (setCoinc c s).bgPal = s.bgPal ∧ (setCoinc c s).objPal = s.objPal ∧
    (setCoinc c s).mode = s.mode ∧ (setCoinc c s).lineCycle = s.lineCycle ∧ (setCoinc c s).displayOn = s.displayOn ∧
    (setCoinc c s).vram = s.vram ∧ (setCoinc c s).oam = s.oam ∧ (setCoinc c s).tilePx = s.tilePx ∧
    (setCoinc c s).bgShade = s.bgShade ∧ (setCoinc c s).objShade0 = s.objShade0 ∧
    (setCoinc c s).objShade1 = s.objShade1 ∧ (setCoinc c s).sprites = s.sprites ∧
    (setCoinc c s).lineColor = s.lineColor ∧ (setCoinc c s).lineRaw = s.lineRaw ∧
    (setCoinc c s).linePrio = s.linePrio ∧ (setCoinc c s).frame = s.frame ∧
    (setCoinc c s).hdmaActive = s.hdmaActive ∧ (setCoinc c s).hdmaSrc = s.hdmaSrc ∧
    (setCoinc c s).hdmaDst = s.hdmaDst ∧ (setCoinc c s).ifVblank = s.ifVblank ∧ (setCoinc c s).ifStat = s.ifStat ∧
    (setCoinc c s).pending = s.pending ∧ (setCoinc c s).answer = s.answer ∧ (setCoinc c s).trace = s.trace ∧
    (setCoinc c s).unspecDraws = s.unspecDraws ∧ (setCoinc c s).memReads = s.memReads ∧
    (setCoinc c s).extMem = s.extMem := ⟨
    rfl, rfl, rfl, rfl, rfl, rfl, rfl, rfl, rfl, rfl, rfl, rfl, rfl, rfl, rfl, rfl, rfl, rfl, rfl, rfl, rfl, rfl,
    rfl, rfl, rfl, rfl, rfl, rfl, rfl, rfl, rfl, rfl, rfl, rfl, rfl, rfl, rfl, rfl, rfl, rfl, rfl, rfl, rfl, rfl⟩

@[simp] theorem setCoinc_stat (c : Bool) (s : State) : (setCoinc c s).stat = { s.stat with coinc := c } := rfl

@[simp] theorem memRead_keeps (a : BusAddr) (s : State) :
    (memRead a s).2.cfg = s.cfg ∧ (memRead a s).2.lcdc = s.lcdc ∧ (memRead a s).2.stat = s.stat ∧
    (memRead a s).2.scy = s.scy ∧ (memRead a s).2.scx = s.scx ∧ (memRead a s).2.ly = s.ly ∧
    (memRead a s).2.lyc = s.lyc ∧ (memRead a s).2.bgp = s.bgp ∧ (memRead a s).2.obp0 = s.obp0 ∧
    (memRead a s).2.obp1 = s.obp1 ∧ (memRead a s).2.wy = s.wy ∧ (memRead a s).2.wx = s.wx ∧
    (memRead a s).2.vbk = s.vbk ∧ (memRead a s).2.hdma1 = s.hdma1 ∧ (memRead a s).2.hdma2 = s.hdma2 ∧
    (memRead a s).2.hdma3 = s.hdma3 ∧ (memRead a s).2.hdma4 = s.hdma4 ∧ (memRead a s).2.hdma5 = s.hdma5 ∧
    (memRead a s).2.bgPal = s.bgPal ∧ (memRead a s).2.objPal = s.objPal ∧ (memRead a s).2.mode = s.mode ∧
    (memRead a s).2.lineCycle = s.lineCycle ∧ (memRead a s).2.displayOn = s.displayOn ∧
    (memRead a s).2.vram = s.vram ∧ (memRead a s).2.oam = s.oam ∧ (memRead a s).2.tilePx = s.tilePx ∧
    (memRead a s).2.bgShade = s.bgShade ∧ (memRead a s).2.objShade0 = s.objShade0 ∧
    (memRead a s).2.objShade1 = s.objShade1 ∧ (memRead a s).2.sprites = s.sprites ∧
    (memRead a s).2.lineColor = s.lineColor ∧ (memRead a s).2.lineRaw = s.lineRaw ∧
    (memRead a s).2.linePrio = s.linePrio ∧ (memRead a s).2.frame = s.frame ∧
    (memRead a s).2.hdmaActive = s.hdmaActive ∧ (memRead a s).2.hdmaSrc = s.hdmaSrc ∧
    (memRead a s).2.hdmaDst = s.hdmaDst ∧ (memRead a s).2.ifVblank = s.ifVblank ∧
    (memRead a s).2.ifStat = s.ifStat ∧ (memRead a s).2.pending = s.pending ∧ (memRead a s).2.answer = s.answer ∧
    (memRead a s).2.trace = s.trace ∧ (memRead a s).2.unspecDraws = s.unspecDraws ∧
    (memRead a s).2.extMem = s.extMem := ⟨
    rfl, rfl, rfl, rfl, rfl, rfl, rfl, rfl, rfl, rfl, rfl, rfl, rfl, rfl, rfl, rfl, rfl, rfl, rfl, rfl, rfl, rfl,
    rfl, rfl, rfl, rfl, rfl, rfl, rfl, rfl, rfl, rfl, rfl, rfl, rfl, rfl, rfl, rfl, rfl, rfl, rfl, rfl, rfl, rfl⟩

@[simp] theorem memRead_memReads (a : BusAddr) (s : State) : (memRead a s).2.memReads = s.memReads + 1 := rfl

@[simp] theorem renderBackground_keeps (ly : Byte) (s : State) :
    (renderBackground ly s).cfg = s.cfg ∧ (renderBackground ly s).lcdc = s.lcdc ∧
    (renderBackground ly s).stat = s.stat ∧ (renderBackground ly s).scy = s.scy ∧
    (renderBackground ly s).scx = s.scx ∧ (renderBackground ly s).ly = s.ly ∧ (renderBackground ly s).lyc = s.lyc ∧
    (renderBackground ly s).bgp = s.bgp ∧ (renderBackground ly s).obp0 = s.obp0 ∧
    (renderBackground ly s).obp1 = s.obp1 ∧ (renderBackground ly s).wy = s.wy ∧ (renderBackground ly s).wx = s.wx ∧
    (renderBackground ly s).vbk = s.vbk ∧ (renderBackground ly s).hdma1 = s.hdma1 ∧
    (renderBackground ly s).hdma2 = s.hdma2 ∧ (renderBackground ly s).hdma3 = s.hdma3 ∧
    (renderBackground ly s).hdma4 = s.hdma4 ∧ (renderBackground ly s).hdma5 = s.hdma5 ∧
    (renderBackground ly s).bgPal = s.bgPal ∧ (renderBackground ly s).objPal = s.objPal ∧
    (renderBackground ly s).mode = s.mode ∧ (renderBackground ly s).lineCycle = s.lineCycle ∧
    (renderBackground ly s).displayOn = s.displayOn ∧ (renderBackground ly s).vram = s.vram ∧
    (renderBackground ly s).oam = s.oam ∧ (renderBackground ly s).tilePx = s.tilePx ∧
    (renderBackground ly s).bgShade = s.bgShade ∧ (renderBackground ly s).objShade0 = s.objShade0 ∧
    (renderBackground ly s).objShade1 = s.objShade1 ∧ (renderBackground ly s).sprites = s.sprites ∧
    (renderBackground ly s).frame = s.frame ∧ (renderBackground ly s).hdmaActive = s.hdmaActive ∧
    (renderBackground ly s).hdmaSrc = s.hdmaSrc ∧ (renderBackground ly s).hdmaDst = s.hdmaDst ∧
    (renderBackground ly s).ifVblank = s.ifVblank ∧ (renderBackground ly s).ifStat = s.ifStat ∧
    (renderBackground ly s).pending = s.pending ∧ (renderBackground ly s).answer = s.answer ∧
    (renderBackground ly s).trace = s.trace ∧ (renderBackground ly s).unspecDraws = s.unspecDraws ∧
    (renderBackground ly s).memReads = s.memReads ∧ (renderBackground ly s).extMem = s.extMem := ⟨
    rfl, rfl, rfl, rfl, rfl, rfl, rfl, rfl, rfl, rfl, rfl, rfl, rfl, rfl, rfl, rfl, rfl, rfl, rfl, rfl, rfl, rfl,
    rfl, rfl, rfl, rfl, rfl, rfl, rfl, rfl, rfl, rfl, rfl, rfl, rfl, rfl, rfl, rfl, rfl, rfl, rfl, rfl⟩

@[simp] theorem renderBackground_lineRaw (ly : Byte) (s : State) : (renderBackground ly s).lineRaw = tabulate 256 fun x => (bgPixel s ly x).raw := rfl

@[simp] theorem renderBackground_linePrio (ly : Byte) (s : State) : (renderBackground ly s).linePrio = tabulate 256 fun x => (bgPixel s ly x).prio := rfl

@[simp] theorem renderBackground_lineColor (ly : Byte) (s : State) : (renderBackground ly s).lineColor = tabulate 256 fun x => (bgPixel s ly x).color := rfl

@[simp] theorem renderWindow_keeps (ly : Byte) (s : State) :
    (renderWindow ly s).cfg = s.cfg ∧ (renderWindow ly s).lcdc = s.lcdc ∧ (renderWindow ly s).stat = s.stat ∧
    (renderWindow ly s).scy = s.scy ∧ (renderWindow ly s).scx = s.scx ∧ (renderWindow ly s).ly = s.ly ∧
    (renderWindow ly s).lyc = s.lyc ∧ (renderWindow ly s).bgp = s.bgp ∧ (renderWindow ly s).obp0 = s.obp0 ∧
    (renderWindow ly s).obp1 = s.obp1 ∧ (renderWindow ly s).wy = s.wy ∧ (renderWindow ly s).wx = s.wx ∧
    (renderWindow ly s).vbk = s.vbk ∧ (renderWindow ly s).hdma1 = s.hdma1 ∧ (renderWindow ly s).hdma2 = s.hdma2 ∧
    (renderWindow ly s).hdma3 = s.hdma3 ∧ (renderWindow ly s).hdma4 = s.hdma4 ∧ (renderWindow ly s).hdma5 = s.hdma5 ∧
    (renderWindow ly s).bgPal = s.bgPal ∧ (renderWindow ly s).objPal = s.objPal ∧ (renderWindow ly s).mode = s.mode ∧
    (renderWindow ly s).lineCycle = s.lineCycle ∧ (renderWindow ly s).displayOn = s.displayOn ∧
    (renderWindow ly s).vram = s.vram ∧ (renderWindow ly s).oam = s.oam ∧ (renderWindow ly s).tilePx = s.tilePx ∧
    (renderWindow ly s).bgShade = s.bgShade ∧ (renderWindow ly s).objShade0 = s.objShade0 ∧
    (renderWindow ly s).objShade1 = s.objShade1 ∧ (renderWindow ly s).sprites = s.sprites ∧
    (renderWindow ly s).frame = s.frame ∧ (renderWindow ly s).hdmaActive = s.hdmaActive ∧
    (renderWindow ly s).hdmaSrc = s.hdmaSrc ∧ (renderWindow ly s).hdmaDst = s.hdmaDst ∧
    (renderWindow ly s).ifVblank = s.ifVblank ∧ (renderWindow ly s).ifStat = s.ifStat ∧
    (renderWindow ly s).pending = s.pending ∧ (renderWindow ly s).answer = s.answer ∧
    (renderWindow ly s).trace = s.trace ∧ (renderWindow ly s).unspecDraws = s.unspecDraws ∧
    (renderWindow ly s).memReads = s.memReads ∧ (renderWindow ly s).extMem = s.extMem := ⟨
    rfl, rfl, rfl, rfl, rfl, rfl, rfl, rfl, rfl, rfl, rfl, rfl, rfl, rfl, rfl, rfl, rfl, rfl, rfl, rfl, rfl, rfl,
    rfl, rfl, rfl, rfl, rfl, rfl, rfl, rfl, rfl, rfl, rfl, rfl, rfl, rfl, rfl, rfl, rfl, rfl, rfl, rfl⟩

@[simp] theorem commitLine_keeps (ly : Byte) (s : State) :
    (commitLine ly s).cfg = s.cfg ∧ (commitLine ly s).lcdc = s.lcdc ∧ (commitLine ly s).stat = s.stat ∧
    (commitLine ly s).scy = s.scy ∧ (commitLine ly s).scx = s.scx ∧ (commitLine ly s).ly = s.ly ∧
    (commitLine ly s).lyc = s.lyc ∧ (commitLine ly s).bgp = s.bgp ∧ (commitLine ly s).obp0 = s.obp0 ∧
    (commitLine ly s).obp1 = s.obp1 ∧ (commitLine ly s).wy = s.wy ∧ (commitLine ly s).wx = s.wx ∧
    (commitLine ly s).vbk = s.vbk ∧ (commitLine ly s).hdma1 = s.hdma1 ∧ (commitLine ly s).hdma2 = s.hdma2 ∧
    (commitLine ly s).hdma3 = s.hdma3 ∧ (commitLine ly s).hdma4 = s.hdma4 ∧ (commitLine ly s).hdma5 = s.hdma5 ∧
    (commitLine ly s).bgPal = s.bgPal ∧ (commitLine ly s).objPal = s.objPal ∧ (commitLine ly s).mode = s.mode ∧
    (commitLine ly s).lineCycle = s.lineCycle ∧ (commitLine ly s).displayOn = s.displayOn ∧
    (commitLine ly s).vram = s.vram ∧ (commitLine ly s).oam = s.oam ∧ (commitLine ly s).tilePx = s.tilePx ∧
    (commitLine ly s).bgShade = s.bgShade ∧ (commitLine ly s).objShade0 = s.objShade0 ∧
    (commitLine ly s).objShade1 = s.objShade1 ∧ (commitLine ly s).sprites = s.sprites ∧
    (commitLine ly s).lineColor = s.lineColor ∧ (commitLine ly s).lineRaw = s.lineRaw ∧
    (commitLine ly s).linePrio = s.linePrio ∧ (commitLine ly s).hdmaActive = s.hdmaActive ∧
    (commitLine ly s).hdmaSrc = s.hdmaSrc ∧ (commitLine ly s).hdmaDst = s.hdmaDst ∧
    (commitLine ly s).ifVblank = s.ifVblank ∧ (commitLine ly s).ifStat = s.ifStat ∧
    (commitLine ly s).pending = s.pending ∧ (commitLine ly s).answer = s.answer ∧ (commitLine ly s).trace = s.trace ∧
    (commitLine ly s).unspecDraws = s.unspecDraws ∧ (commitLine ly s).memReads = s.memReads ∧
    (commitLine ly s).extMem = s.extMem := ⟨
    rfl, rfl, rfl, rfl, rfl, rfl, rfl, rfl, rfl, rfl, rfl, rfl, rfl, rfl, rfl, rfl, rfl, rfl, rfl, rfl, rfl, rfl,
    rfl, rfl, rfl, rfl, rfl, rfl, rfl, rfl, rfl, rfl, rfl, rfl, rfl, rfl, rfl, rfl, rfl, rfl, rfl, rfl, rfl, rfl⟩

@[simp] theorem commitLine_frame (ly : Byte) (s : State) : (commitLine ly s).frame = s.frame.setIfInBounds ly.toNat s.lineColor := rfl

@[simp] theorem raiseIrq_keeps (k : Irq) (s : State) :
    (raiseIrq k s).cfg = s.cfg ∧ (raiseIrq k s).lcdc = s.lcdc ∧ (raiseIrq k s).stat = s.stat ∧
    (raiseIrq k s).scy = s.scy ∧ (raiseIrq k s).scx = s.scx ∧ (raiseIrq k s).ly = s.ly ∧ (raiseIrq k s).lyc = s.lyc ∧
    (raiseIrq k s).bgp = s.bgp ∧ (raiseIrq k s).obp0 = s.obp0 ∧ (raiseIrq k s).obp1 = s.obp1 ∧
    (raiseIrq k s).wy = s.wy ∧ (raiseIrq k s).wx = s.wx ∧ (raiseIrq k s).vbk = s.vbk ∧
    (raiseIrq k s).hdma1 = s.hdma1 ∧ (raiseIrq k s).hdma2 = s.hdma2 ∧ (raiseIrq k s).hdma3 = s.hdma3 ∧
    (raiseIrq k s).hdma4 = s.hdma4 ∧ (raiseIrq k s).hdma5 = s.hdma5 ∧ (raiseIrq k s).bgPal = s.bgPal ∧
    (raiseIrq k s).objPal = s.objPal ∧ (raiseIrq k s).mode = s.mode ∧ (raiseIrq k s).lineCycle = s.lineCycle ∧
    (raiseIrq k s).displayOn = s.displayOn ∧ (raiseIrq k s).vram = s.vram ∧ (raiseIrq k s).oam = s.oam ∧
    (raiseIrq k s).tilePx = s.tilePx ∧ (raiseIrq k s).bgShade = s.bgShade ∧ (raiseIrq k s).objShade0 = s.objShade0 ∧
    (raiseIrq k s).objShade1 = s.objShade1 ∧ (raiseIrq k s).sprites = s.sprites ∧
    (raiseIrq k s).lineColor = s.lineColor ∧ (raiseIrq k s).lineRaw = s.lineRaw ∧
    (raiseIrq k s).linePrio = s.linePrio ∧ (raiseIrq k s).frame = s.frame ∧
    (raiseIrq k s).hdmaActive = s.hdmaActive ∧ (raiseIrq k s).hdmaSrc = s.hdmaSrc ∧
    (raiseIrq k s).hdmaDst = s.hdmaDst ∧ (raiseIrq k s).pending = s.pending ∧ (raiseIrq k s).answer = s.answer ∧
    (raiseIrq k s).unspecDraws = s.unspecDraws ∧ (raiseIrq k s).memReads = s.memReads ∧
    (raiseIrq k s).extMem = s.extMem := by
  cases k <;> exact ⟨
    rfl, rfl, rfl, rfl, rfl, rfl, rfl, rfl, rfl, rfl, rfl, rfl, rfl, rfl, rfl, rfl, rfl, rfl, rfl, rfl, rfl, rfl,
    rfl, rfl, rfl, rfl, rfl, rfl, rfl, rfl, rfl, rfl, rfl, rfl, rfl, rfl, rfl, rfl, rfl, rfl, rfl, rfl⟩

@[simp] theorem raiseIrq_ifVblank (k : Irq) (s : State) : (raiseIrq k s).ifVblank = (s.ifVblank || k == .vblank) := by
  cases k <;> simp [raiseIrq]

@[simp] theorem raiseIrq_ifStat (k : Irq) (s : State) : (raiseIrq k s).ifStat = (s.ifStat || k == .stat) := by
  cases k <;> simp [raiseIrq]

@[simp] theorem raiseIrq_trace (k : Irq) (s : State) : (raiseIrq k s).trace = s.trace ++ [.raise k] := by
  cases k <;> rfl

@[simp] theorem raiseIf_keeps (en : Bool) (k : Irq) (s : State) :
    (raiseIf en k s).cfg = s.cfg ∧ (raiseIf en k s).lcdc = s.lcdc ∧ (raiseIf en k s).stat = s.stat ∧
    (raiseIf en k s).scy = s.scy ∧ (raiseIf en k s).scx = s.scx ∧ (raiseIf en k s).ly = s.ly ∧
    (raiseIf en k s).lyc = s.lyc ∧ (raiseIf en k s).bgp = s.bgp ∧ (raiseIf en k s).obp0 = s.obp0 ∧
    (raiseIf en k s).obp1 = s.obp1 ∧ (raiseIf en k s).wy = s.wy ∧ (raiseIf en k s).wx = s.wx ∧
    (raiseIf en k s).vbk = s.vbk ∧ (raiseIf en k s).hdma1 = s.hdma1 ∧ (raiseIf en k s).hdma2 = s.hdma2 ∧
    (raiseIf en k s).hdma3 = s.hdma3 ∧ (raiseIf en k s).hdma4 = s.hdma4 ∧ (raiseIf en k s).hdma5 = s.hdma5 ∧
    (raiseIf en k s).bgPal = s.bgPal ∧ (raiseIf en k s).objPal = s.objPal ∧ (raiseIf en k s).mode = s.mode ∧
    (raiseIf en k s).lineCycle = s.lineCycle ∧ (raiseIf en k s).displayOn = s.displayOn ∧
    (raiseIf en k s).vram = s.vram ∧ (raiseIf en k s).oam = s.oam ∧ (raiseIf en k s).tilePx = s.tilePx ∧
    (raiseIf en k s).bgShade = s.bgShade ∧ (raiseIf en k s).objShade0 = s.objShade0 ∧
    (raiseIf en k s).objShade1 = s.objShade1 ∧ (raiseIf en k s).sprites = s.sprites ∧
    (raiseIf en k s).lineColor = s.lineColor ∧ (raiseIf en k s).lineRaw = s.lineRaw ∧
    (raiseIf en k s).linePrio = s.linePrio ∧ (raiseIf en k s).frame = s.frame ∧
    (raiseIf en k s).hdmaActive = s.hdmaActive ∧ (raiseIf en k s).hdmaSrc = s.hdmaSrc ∧
    (raiseIf en k s).hdmaDst = s.hdmaDst ∧ (raiseIf en k s).pending = s.pending ∧
    (raiseIf en k s).answer = s.answer ∧ (raiseIf en k s).unspecDraws = s.unspecDraws ∧
    (raiseIf en k s).memReads = s.memReads ∧ (raiseIf en k s).extMem = s.extMem := by
  cases en <;> cases k <;> exact ⟨
    rfl, rfl, rfl, rfl, rfl, rfl, rfl, rfl, rfl, rfl, rfl, rfl, rfl, rfl, rfl, rfl, rfl, rfl, rfl, rfl, rfl, rfl,
    rfl, rfl, rfl, rfl, rfl, rfl, rfl, rfl, rfl, rfl, rfl, rfl, rfl, rfl, rfl, rfl, rfl, rfl, rfl, rfl⟩

@[simp] theorem raiseIf_ifVblank (en : Bool) (k : Irq) (s : State) :
    (raiseIf en k s).ifVblank = (s.ifVblank || (en && k == .vblank)) := by
  cases en <;> cases k <;> simp [raiseIf, raiseIrq]

@[simp] theorem raiseIf_ifStat (en : Bool) (k : Irq) (s : State) :
    (raiseIf en k s).ifStat = (s.ifStat || (en && k == .stat)) := by
  cases en <;> cases k <;> simp [raiseIf, raiseIrq]

@[simp] theorem raiseIf_trace (en : Bool) (k : Irq) (s : State) :
    (raiseIf en k s).trace = s.trace ++ (if en then [.raise k] else []) := by
  cases en <;> cases k <;> simp [raiseIf, raiseIrq]

end Sys2Proof.Machine
end

