-- ==== Sys2Proof/Laws/Frames.lean ====
section
/-! SUPPORT. What each shared operation can change, as one equation: the state after it is the state before with the named
fields replaced. From each equation follows one simp lemma that gives every field the operation leaves. -/

namespace Sys2Proof.Machine

/-! ## Video memory -/

theorem decodeBank_frame (b k : Bank) (a : VramOffset) (s : State) :
    decodeBank b k a s = { s with tilePx := (decodeBank b k a s).tilePx } := by
  unfold decodeBank; dsimp only; split <;> rfl

theorem decodeOnWrite_frame (b : Bank) (a : VramOffset) (s : State) :
    decodeOnWrite b a s = { s with tilePx := (decodeOnWrite b a s).tilePx } := by
  unfold decodeOnWrite
  rw [decodeBank_frame, decodeBank_frame b 1#1]

theorem vramWrite_frame (b : Bank) (a : VramOffset) (v : Byte) (s : State) :
    vramWrite b a v s = { s with
      vram := storeWrite Memory.unlisted s.vram (vramKey b a) v, tilePx := (vramWrite b a v s).tilePx } := by
  unfold vramWrite
  rw [decodeOnWrite_frame]; rfl

@[simp] theorem vramWrite_keeps (b : Bank) (a : VramOffset) (v : Byte) (s : State) :
    (vramWrite b a v s).cfg = s.cfg ∧ (vramWrite b a v s).lcdc = s.lcdc ∧ (vramWrite b a v s).stat = s.stat ∧
    (vramWrite b a v s).scy = s.scy ∧ (vramWrite b a v s).scx = s.scx ∧ (vramWrite b a v s).ly = s.ly ∧
    (vramWrite b a v s).lyc = s.lyc ∧ (vramWrite b a v s).bgp = s.bgp ∧ (vramWrite b a v s).obp0 = s.obp0 ∧
    (vramWrite b a v s).obp1 = s.obp1 ∧ (vramWrite b a v s).wy = s.wy ∧ (vramWrite b a v s).wx = s.wx ∧
    (vramWrite b a v s).vbk = s.vbk ∧ (vramWrite b a v s).hdma1 = s.hdma1 ∧ (vramWrite b a v s).hdma2 = s.hdma2 ∧
    (vramWrite b a v s).hdma3 = s.hdma3 ∧ (vramWrite b a v s).hdma4 = s.hdma4 ∧ (vramWrite b a v s).hdma5 = s.hdma5 ∧
    (vramWrite b a v s).bgPal = s.bgPal ∧ (vramWrite b a v s).objPal = s.objPal ∧ (vramWrite b a v s).mode = s.mode ∧
    (vramWrite b a v s).lineCycle = s.lineCycle ∧ (vramWrite b a v s).displayOn = s.displayOn ∧
    (vramWrite b a v s).oam = s.oam ∧ (vramWrite b a v s).bgShade = s.bgShade ∧
    (vramWrite b a v s).objShade0 = s.objShade0 ∧ (vramWrite b a v s).objShade1 = s.objShade1 ∧
    (vramWrite b a v s).sprites = s.sprites ∧ (vramWrite b a v s).lineColor = s.lineColor ∧
    (vramWrite b a v s).lineRaw = s.lineRaw ∧ (vramWrite b a v s).linePrio = s.linePrio ∧
    (vramWrite b a v s).frame = s.frame ∧ (vramWrite b a v s).hdmaActive = s.hdmaActive ∧
    (vramWrite b a v s).hdmaSrc = s.hdmaSrc ∧ (vramWrite b a v s).hdmaDst = s.hdmaDst ∧
    (vramWrite b a v s).ifVblank = s.ifVblank ∧ (vramWrite b a v s).ifStat = s.ifStat ∧
    (vramWrite b a v s).pending = s.pending ∧ (vramWrite b a v s).answer = s.answer ∧
    (vramWrite b a v s).trace = s.trace ∧ (vramWrite b a v s).unspecDraws = s.unspecDraws ∧
    (vramWrite b a v s).memReads = s.memReads ∧ (vramWrite b a v s).extMem = s.extMem := by
  rw [vramWrite_frame b a v s]
  exact ⟨
    rfl, rfl, rfl, rfl, rfl, rfl, rfl, rfl, rfl, rfl, rfl, rfl, rfl, rfl, rfl, rfl, rfl, rfl, rfl, rfl, rfl, rfl,
    rfl, rfl, rfl, rfl, rfl, rfl, rfl, rfl, rfl, rfl, rfl, rfl, rfl, rfl, rfl, rfl, rfl, rfl, rfl, rfl, rfl⟩

/-! ## The compositor -/

theorem drawSpriteColumn_frame (sp : Sprite) (ly : Byte) (h : Nat) (s : State) (i : Nat) :
    drawSpriteColumn sp ly h s i = { s with lineColor := (drawSpriteColumn sp ly h s i).lineColor } := by
  unfold drawSpriteColumn
  dsimp only
  split
  · rfl
  · split <;> rfl

/-- A fold whose every step changes `line_color` only changes `line_color` only. -/
theorem foldl_lineColor_frame {β : Type} (f : State → β → State)
    (hf : ∀ s b, f s b = { s with lineColor := (f s b).lineColor }) (l : List β) (s : State) :
    l.foldl f s = { s with lineColor := (l.foldl f s).lineColor } := by
  induction l generalizing s with
  | nil => rfl
  | cons b l ih =>
    rw [List.foldl_cons, ih, hf s b]

theorem drawSprite_frame (sp : Sprite) (ly : Byte) (h : Nat) (s : State) :
    drawSprite sp ly h s = { s with lineColor := (drawSprite sp ly h s).lineColor } :=
  foldl_lineColor_frame _ (fun s i => drawSpriteColumn_frame sp ly h s i) _ s

theorem renderSprites_frame (ly : Byte) (s : State) :
    renderSprites ly s = { s with lineColor := (renderSprites ly s).lineColor } := by
  unfold renderSprites
  split
  · exact foldl_lineColor_frame _ (fun t n => drawSprite_frame _ ly _ t) _ s
  · rfl

theorem renderLine_frame (ly : Byte) (s : State) :
    renderLine ly s = { s with
      lineColor := (renderLine ly s).lineColor, lineRaw := (renderLine ly s).lineRaw
      linePrio := (renderLine ly s).linePrio, frame := s.frame.setIfInBounds ly.toNat (renderLine ly s).lineColor } := by
  unfold renderLine commitLine
  rw [renderSprites_frame]
  rfl

@[simp] theorem renderSprites_keeps (ly : Byte) (s : State) :
    (renderSprites ly s).cfg = s.cfg ∧ (renderSprites ly s).lcdc = s.lcdc ∧ (renderSprites ly s).stat = s.stat ∧
    (renderSprites ly s).scy = s.scy ∧ (renderSprites ly s).scx = s.scx ∧ (renderSprites ly s).ly = s.ly ∧
    (renderSprites ly s).lyc = s.lyc ∧ (renderSprites ly s).bgp = s.bgp ∧ (renderSprites ly s).obp0 = s.obp0 ∧
    (renderSprites ly s).obp1 = s.obp1 ∧ (renderSprites ly s).wy = s.wy ∧ (renderSprites ly s).wx = s.wx ∧
    (renderSprites ly s).vbk = s.vbk ∧ (renderSprites ly s).hdma1 = s.hdma1 ∧ (renderSprites ly s).hdma2 = s.hdma2 ∧
    (renderSprites ly s).hdma3 = s.hdma3 ∧ (renderSprites ly s).hdma4 = s.hdma4 ∧
    (renderSprites ly s).hdma5 = s.hdma5 ∧ (renderSprites ly s).bgPal = s.bgPal ∧
    (renderSprites ly s).objPal = s.objPal ∧ (renderSprites ly s).mode = s.mode ∧
    (renderSprites ly s).lineCycle = s.lineCycle ∧ (renderSprites ly s).displayOn = s.displayOn ∧
    (renderSprites ly s).vram = s.vram ∧ (renderSprites ly s).oam = s.oam ∧ (renderSprites ly s).tilePx = s.tilePx ∧
    (renderSprites ly s).bgShade = s.bgShade ∧ (renderSprites ly s).objShade0 = s.objShade0 ∧
    (renderSprites ly s).objShade1 = s.objShade1 ∧ (renderSprites ly s).sprites = s.sprites ∧
    (renderSprites ly s).lineRaw = s.lineRaw ∧ (renderSprites ly s).linePrio = s.linePrio ∧
    (renderSprites ly s).frame = s.frame ∧ (renderSprites ly s).hdmaActive = s.hdmaActive ∧
    (renderSprites ly s).hdmaSrc = s.hdmaSrc ∧ (renderSprites ly s).hdmaDst = s.hdmaDst ∧
    (renderSprites ly s).ifVblank = s.ifVblank ∧ (renderSprites ly s).ifStat = s.ifStat ∧
    (renderSprites ly s).pending = s.pending ∧ (renderSprites ly s).answer = s.answer ∧
    (renderSprites ly s).trace = s.trace ∧ (renderSprites ly s).unspecDraws = s.unspecDraws ∧
    (renderSprites ly s).memReads = s.memReads ∧ (renderSprites ly s).extMem = s.extMem := by
  rw [renderSprites_frame ly s]
  exact ⟨
    rfl, rfl, rfl, rfl, rfl, rfl, rfl, rfl, rfl, rfl, rfl, rfl, rfl, rfl, rfl, rfl, rfl, rfl, rfl, rfl, rfl, rfl,
    rfl, rfl, rfl, rfl, rfl, rfl, rfl, rfl, rfl, rfl, rfl, rfl, rfl, rfl, rfl, rfl, rfl, rfl, rfl, rfl, rfl, rfl⟩

@[simp] theorem renderLine_keeps (ly : Byte) (s : State) :
    (renderLine ly s).cfg = s.cfg ∧ (renderLine ly s).lcdc = s.lcdc ∧ (renderLine ly s).stat = s.stat ∧
    (renderLine ly s).scy = s.scy ∧ (renderLine ly s).scx = s.scx ∧ (renderLine ly s).ly = s.ly ∧
    (renderLine ly s).lyc = s.lyc ∧ (renderLine ly s).bgp = s.bgp ∧ (renderLine ly s).obp0 = s.obp0 ∧
    (renderLine ly s).obp1 = s.obp1 ∧ (renderLine ly s).wy = s.wy ∧ (renderLine ly s).wx = s.wx ∧
    (renderLine ly s).vbk = s.vbk ∧ (renderLine ly s).hdma1 = s.hdma1 ∧ (renderLine ly s).hdma2 = s.hdma2 ∧
    (renderLine ly s).hdma3 = s.hdma3 ∧ (renderLine ly s).hdma4 = s.hdma4 ∧ (renderLine ly s).hdma5 = s.hdma5 ∧
    (renderLine ly s).bgPal = s.bgPal ∧ (renderLine ly s).objPal = s.objPal ∧ (renderLine ly s).mode = s.mode ∧
    (renderLine ly s).lineCycle = s.lineCycle ∧ (renderLine ly s).displayOn = s.displayOn ∧
    (renderLine ly s).vram = s.vram ∧ (renderLine ly s).oam = s.oam ∧ (renderLine ly s).tilePx = s.tilePx ∧
    (renderLine ly s).bgShade = s.bgShade ∧ (renderLine ly s).objShade0 = s.objShade0 ∧
    (renderLine ly s).objShade1 = s.objShade1 ∧ (renderLine ly s).sprites = s.sprites ∧
    (renderLine ly s).hdmaActive = s.hdmaActive ∧ (renderLine ly s).hdmaSrc = s.hdmaSrc ∧
    (renderLine ly s).hdmaDst = s.hdmaDst ∧ (renderLine ly s).ifVblank = s.ifVblank ∧
    (renderLine ly s).ifStat = s.ifStat ∧ (renderLine ly s).pending = s.pending ∧
    (renderLine ly s).answer = s.answer ∧ (renderLine ly s).trace = s.trace ∧
    (renderLine ly s).unspecDraws = s.unspecDraws ∧ (renderLine ly s).memReads = s.memReads ∧
    (renderLine ly s).extMem = s.extMem := by
  rw [renderLine_frame ly s]
  exact ⟨
    rfl, rfl, rfl, rfl, rfl, rfl, rfl, rfl, rfl, rfl, rfl, rfl, rfl, rfl, rfl, rfl, rfl, rfl, rfl, rfl, rfl, rfl,
    rfl, rfl, rfl, rfl, rfl, rfl, rfl, rfl, rfl, rfl, rfl, rfl, rfl, rfl, rfl, rfl, rfl, rfl, rfl⟩

/-! ## Colour-DMA -/

theorem copyByte_frame (src : BusAddr) (dst : VramOffset) (s : State) (k : Nat) :
    copyByte src dst s k = { s with
      vram := storeWrite Memory.unlisted s.vram (vramKey s.vbk (dst + BitVec.ofNat 13 k))
        (memAnswer s 0 (src + BitVec.ofNat 16 k))
      tilePx := (copyByte src dst s k).tilePx, memReads := s.memReads + 1 } := by
  unfold copyByte memRead
  dsimp only
  rw [vramWrite_frame]

/-- A fold whose every step changes video memory and asks the external memory for `n` bytes. -/
theorem foldl_copy_frame {β : Type} (f : State → β → State) (n : Nat)
    (hf : ∀ s b, f s b = { s with vram := (f s b).vram, tilePx := (f s b).tilePx, memReads := s.memReads + n })
    (l : List β) (s : State) :
    l.foldl f s = { s with
      vram := (l.foldl f s).vram, tilePx := (l.foldl f s).tilePx, memReads := s.memReads + n * l.length } := by
  induction l generalizing s with
  | nil => rfl
  | cons b l ih =>
    rw [List.foldl_cons, ih, hf s b]
    simp only [List.length_cons, Nat.mul_add, Nat.mul_one]
    congr 1
    omega

theorem copyBlock_frame (src : BusAddr) (dst : VramOffset) (s : State) :
    copyBlock src dst s = { s with
      vram := (copyBlock src dst s).vram, tilePx := (copyBlock src dst s).tilePx, memReads := s.memReads + 16 } :=
  foldl_copy_frame (copyByte src dst) 1 (fun s k => by rw [copyByte_frame]) (List.range 16) s

theorem copyBlocks_frame (src : BusAddr) (dst : VramOffset) (n : Nat) (s : State) :
    copyBlocks src dst n s = { s with
      vram := (copyBlocks src dst n s).vram, tilePx := (copyBlocks src dst n s).tilePx
      memReads := s.memReads + 16 * n } := by
  have := foldl_copy_frame
    (fun t j => copyBlock (src + BitVec.ofNat 16 (16 * j)) (dst + BitVec.ofNat 13 (16 * j)) t) 16
    (fun s k => copyBlock_frame _ _ s) (List.range n) s
  rwa [List.length_range] at this

theorem hdmaBlock_frame (s : State) :
    hdmaBlock s = { s with
      vram := (copyBlock s.hdmaSrc s.hdmaDst s).vram, tilePx := (copyBlock s.hdmaSrc s.hdmaDst s).tilePx
      memReads := s.memReads + 16, hdmaSrc := s.hdmaSrc + 16#16, hdmaDst := s.hdmaDst + 16#13
      hdma5 := if dmaLen s.hdma5 = 0#7 then 0xFF#8 else (dmaLen s.hdma5 - 1#7).zeroExtend 8
      hdmaActive := if dmaLen s.hdma5 = 0#7 then false else s.hdmaActive } := by
  unfold hdmaBlock
  rw [copyBlock_frame]
  dsimp only
  split <;> rfl

theorem hblankDma_frame (s : State) :
    hblankDma s = { s with
      vram := (hblankDma s).vram, tilePx := (hblankDma s).tilePx, memReads := (hblankDma s).memReads
      hdmaSrc := (hblankDma s).hdmaSrc, hdmaDst := (hblankDma s).hdmaDst, hdma5 := (hblankDma s).hdma5
      hdmaActive := (hblankDma s).hdmaActive } := by
  unfold hblankDma
  split
  · rw [hdmaBlock_frame]
  · rfl

@[simp] theorem copyByte_keeps (src : BusAddr) (dst : VramOffset) (s : State) (k : Nat) :
    (copyByte src dst s k).cfg = s.cfg ∧ (copyByte src dst s k).lcdc = s.lcdc ∧
    (copyByte src dst s k).stat = s.stat ∧ (copyByte src dst s k).scy = s.scy ∧ (copyByte src dst s k).scx = s.scx ∧
    (copyByte src dst s k).ly = s.ly ∧ (copyByte src dst s k).lyc = s.lyc ∧ (copyByte src dst s k).bgp = s.bgp ∧
    (copyByte src dst s k).obp0 = s.obp0 ∧ (copyByte src dst s k).obp1 = s.obp1 ∧ (copyByte src dst s k).wy = s.wy ∧
    (copyByte src dst s k).wx = s.wx ∧ (copyByte src dst s k).vbk = s.vbk ∧ (copyByte src dst s k).hdma1 = s.hdma1 ∧
    (copyByte src dst s k).hdma2 = s.hdma2 ∧ (copyByte src dst s k).hdma3 = s.hdma3 ∧
    (copyByte src dst s k).hdma4 = s.hdma4 ∧ (copyByte src dst s k).hdma5 = s.hdma5 ∧
    (copyByte src dst s k).bgPal = s.bgPal ∧ (copyByte src dst s k).objPal = s.objPal ∧
    (copyByte src dst s k).mode = s.mode ∧ (copyByte src dst s k).lineCycle = s.lineCycle ∧
    (copyByte src dst s k).displayOn = s.displayOn ∧ (copyByte src dst s k).oam = s.oam ∧
    (copyByte src dst s k).bgShade = s.bgShade ∧ (copyByte src dst s k).objShade0 = s.objShade0 ∧
    (copyByte src dst s k).objShade1 = s.objShade1 ∧ (copyByte src dst s k).sprites = s.sprites ∧
    (copyByte src dst s k).lineColor = s.lineColor ∧ (copyByte src dst s k).lineRaw = s.lineRaw ∧
    (copyByte src dst s k).linePrio = s.linePrio ∧ (copyByte src dst s k).frame = s.frame ∧
    (copyByte src dst s k).hdmaActive = s.hdmaActive ∧ (copyByte src dst s k).hdmaSrc = s.hdmaSrc ∧
    (copyByte src dst s k).hdmaDst = s.hdmaDst ∧ (copyByte src dst s k).ifVblank = s.ifVblank ∧
    (copyByte src dst s k).ifStat = s.ifStat ∧ (copyByte src dst s k).pending = s.pending ∧
    (copyByte src dst s k).answer = s.answer ∧ (copyByte src dst s k).trace = s.trace ∧
    (copyByte src dst s k).unspecDraws = s.unspecDraws ∧ (copyByte src dst s k).extMem = s.extMem := by
  rw [copyByte_frame src dst s k]
  exact ⟨
    rfl, rfl, rfl, rfl, rfl, rfl, rfl, rfl, rfl, rfl, rfl, rfl, rfl, rfl, rfl, rfl, rfl, rfl, rfl, rfl, rfl, rfl,
    rfl, rfl, rfl, rfl, rfl, rfl, rfl, rfl, rfl, rfl, rfl, rfl, rfl, rfl, rfl, rfl, rfl, rfl, rfl, rfl⟩

@[simp] theorem copyBlock_keeps (src : BusAddr) (dst : VramOffset) (s : State) :
    (copyBlock src dst s).cfg = s.cfg ∧ (copyBlock src dst s).lcdc = s.lcdc ∧ (copyBlock src dst s).stat = s.stat ∧
    (copyBlock src dst s).scy = s.scy ∧ (copyBlock src dst s).scx = s.scx ∧ (copyBlock src dst s).ly = s.ly ∧
    (copyBlock src dst s).lyc = s.lyc ∧ (copyBlock src dst s).bgp = s.bgp ∧ (copyBlock src dst s).obp0 = s.obp0 ∧
    (copyBlock src dst s).obp1 = s.obp1 ∧ (copyBlock src dst s).wy = s.wy ∧ (copyBlock src dst s).wx = s.wx ∧
    (copyBlock src dst s).vbk = s.vbk ∧ (copyBlock src dst s).hdma1 = s.hdma1 ∧
    (copyBlock src dst s).hdma2 = s.hdma2 ∧ (copyBlock src dst s).hdma3 = s.hdma3 ∧
    (copyBlock src dst s).hdma4 = s.hdma4 ∧ (copyBlock src dst s).hdma5 = s.hdma5 ∧
    (copyBlock src dst s).bgPal = s.bgPal ∧ (copyBlock src dst s).objPal = s.objPal ∧
    (copyBlock src dst s).mode = s.mode ∧ (copyBlock src dst s).lineCycle = s.lineCycle ∧
    (copyBlock src dst s).displayOn = s.displayOn ∧ (copyBlock src dst s).oam = s.oam ∧
    (copyBlock src dst s).bgShade = s.bgShade ∧ (copyBlock src dst s).objShade0 = s.objShade0 ∧
    (copyBlock src dst s).objShade1 = s.objShade1 ∧ (copyBlock src dst s).sprites = s.sprites ∧
    (copyBlock src dst s).lineColor = s.lineColor ∧ (copyBlock src dst s).lineRaw = s.lineRaw ∧
    (copyBlock src dst s).linePrio = s.linePrio ∧ (copyBlock src dst s).frame = s.frame ∧
    (copyBlock src dst s).hdmaActive = s.hdmaActive ∧ (copyBlock src dst s).hdmaSrc = s.hdmaSrc ∧
    (copyBlock src dst s).hdmaDst = s.hdmaDst ∧ (copyBlock src dst s).ifVblank = s.ifVblank ∧
    (copyBlock src dst s).ifStat = s.ifStat ∧ (copyBlock src dst s).pending = s.pending ∧
    (copyBlock src dst s).answer = s.answer ∧ (copyBlock src dst s).trace = s.trace ∧
    (copyBlock src dst s).unspecDraws = s.unspecDraws ∧ (copyBlock src dst s).extMem = s.extMem := by
  rw [copyBlock_frame src dst s]
  exact ⟨
    rfl, rfl, rfl, rfl, rfl, rfl, rfl, rfl, rfl, rfl, rfl, rfl, rfl, rfl, rfl, rfl, rfl, rfl, rfl, rfl, rfl, rfl,
    rfl, rfl, rfl, rfl, rfl, rfl, rfl, rfl, rfl, rfl, rfl, rfl, rfl, rfl, rfl, rfl, rfl, rfl, rfl, rfl⟩

@[simp] theorem copyBlocks_keeps (src : BusAddr) (dst : VramOffset) (n : Nat) (s : State) :
    (copyBlocks src dst n s).cfg = s.cfg ∧ (copyBlocks src dst n s).lcdc = s.lcdc ∧
    (copyBlocks src dst n s).stat = s.stat ∧ (copyBlocks src dst n s).scy = s.scy ∧
    (copyBlocks src dst n s).scx = s.scx ∧ (copyBlocks src dst n s).ly = s.ly ∧
    (copyBlocks src dst n s).lyc = s.lyc ∧ (copyBlocks src dst n s).bgp = s.bgp ∧
    (copyBlocks src dst n s).obp0 = s.obp0 ∧ (copyBlocks src dst n s).obp1 = s.obp1 ∧
    (copyBlocks src dst n s).wy = s.wy ∧ (copyBlocks src dst n s).wx = s.wx ∧ (copyBlocks src dst n s).vbk = s.vbk ∧
    (copyBlocks src dst n s).hdma1 = s.hdma1 ∧ (copyBlocks src dst n s).hdma2 = s.hdma2 ∧
    (copyBlocks src dst n s).hdma3 = s.hdma3 ∧ (copyBlocks src dst n s).hdma4 = s.hdma4 ∧
    (copyBlocks src dst n s).hdma5 = s.hdma5 ∧ (copyBlocks src dst n s).bgPal = s.bgPal ∧
    (copyBlocks src dst n s).objPal = s.objPal ∧ (copyBlocks src dst n s).mode = s.mode ∧
    (copyBlocks src dst n s).lineCycle = s.lineCycle ∧ (copyBlocks src dst n s).displayOn = s.displayOn ∧
    (copyBlocks src dst n s).oam = s.oam ∧ (copyBlocks src dst n s).bgShade = s.bgShade ∧
    (copyBlocks src dst n s).objShade0 = s.objShade0 ∧ (copyBlocks src dst n s).objShade1 = s.objShade1 ∧
    (copyBlocks src dst n s).sprites = s.sprites ∧ (copyBlocks src dst n s).lineColor = s.lineColor ∧
    (copyBlocks src dst n s).lineRaw = s.lineRaw ∧ (copyBlocks src dst n s).linePrio = s.linePrio ∧
    (copyBlocks src dst n s).frame = s.frame ∧ (copyBlocks src dst n s).hdmaActive = s.hdmaActive ∧
    (copyBlocks src dst n s).hdmaSrc = s.hdmaSrc ∧ (copyBlocks src dst n s).hdmaDst = s.hdmaDst ∧
    (copyBlocks src dst n s).ifVblank = s.ifVblank ∧ (copyBlocks src dst n s).ifStat = s.ifStat ∧
    (copyBlocks src dst n s).pending = s.pending ∧ (copyBlocks src dst n s).answer = s.answer ∧
    (copyBlocks src dst n s).trace = s.trace ∧ (copyBlocks src dst n s).unspecDraws = s.unspecDraws ∧
    (copyBlocks src dst n s).extMem = s.extMem := by
  rw [copyBlocks_frame src dst n s]
  exact ⟨
    rfl, rfl, rfl, rfl, rfl, rfl, rfl, rfl, rfl, rfl, rfl, rfl, rfl, rfl, rfl, rfl, rfl, rfl, rfl, rfl, rfl, rfl,
    rfl, rfl, rfl, rfl, rfl, rfl, rfl, rfl, rfl, rfl, rfl, rfl, rfl, rfl, rfl, rfl, rfl, rfl, rfl, rfl⟩

@[simp] theorem hblankDma_keeps (s : State) :
    (hblankDma s).cfg = s.cfg ∧ (hblankDma s).lcdc = s.lcdc ∧ (hblankDma s).stat = s.stat ∧
    (hblankDma s).scy = s.scy ∧ (hblankDma s).scx = s.scx ∧ (hblankDma s).ly = s.ly ∧ (hblankDma s).lyc = s.lyc ∧
    (hblankDma s).bgp = s.bgp ∧ (hblankDma s).obp0 = s.obp0 ∧ (hblankDma s).obp1 = s.obp1 ∧ (hblankDma s).wy = s.wy ∧
    (hblankDma s).wx = s.wx ∧ (hblankDma s).vbk = s.vbk ∧ (hblankDma s).hdma1 = s.hdma1 ∧
    (hblankDma s).hdma2 = s.hdma2 ∧ (hblankDma s).hdma3 = s.hdma3 ∧ (hblankDma s).hdma4 = s.hdma4 ∧
    (hblankDma s).bgPal = s.bgPal ∧ (hblankDma s).objPal = s.objPal ∧ (hblankDma s).mode = s.mode ∧
    (hblankDma s).lineCycle = s.lineCycle ∧ (hblankDma s).displayOn = s.displayOn ∧ (hblankDma s).oam = s.oam ∧
    (hblankDma s).bgShade = s.bgShade ∧ (hblankDma s).objShade0 = s.objShade0 ∧
    (hblankDma s).objShade1 = s.objShade1 ∧ (hblankDma s).sprites = s.sprites ∧
    (hblankDma s).lineColor = s.lineColor ∧ (hblankDma s).lineRaw = s.lineRaw ∧ (hblankDma s).linePrio = s.linePrio ∧
    (hblankDma s).frame = s.frame ∧ (hblankDma s).ifVblank = s.ifVblank ∧ (hblankDma s).ifStat = s.ifStat ∧
    (hblankDma s).pending = s.pending ∧ (hblankDma s).answer = s.answer ∧ (hblankDma s).trace = s.trace ∧
    (hblankDma s).unspecDraws = s.unspecDraws ∧ (hblankDma s).extMem = s.extMem := by
  rw [hblankDma_frame s]
  exact ⟨
    rfl, rfl, rfl, rfl, rfl, rfl, rfl, rfl, rfl, rfl, rfl, rfl, rfl, rfl, rfl, rfl, rfl, rfl, rfl, rfl, rfl, rfl,
    rfl, rfl, rfl, rfl, rfl, rfl, rfl, rfl, rfl, rfl, rfl, rfl, rfl, rfl, rfl, rfl⟩

/-! ## The comparison and the mode entries -/

/-- The request of a comparison: the bit goes 0 to 1 and its enable is set (R174). -/
def lycFires (s : State) : Bool := !s.stat.coinc && s.ly == s.lyc && s.stat.lycIe

theorem raiseIf_stat_frame (en : Bool) (s : State) :
    raiseIf en .stat s = { s with
      ifStat := s.ifStat || en, trace := s.trace ++ (if en then [.raise .stat] else []) } := by
  cases en <;> simp [raiseIf, raiseIrq]

theorem lycCompare_frame (s : State) :
    lycCompare s = { s with
      stat := { s.stat with coinc := s.ly == s.lyc }, ifStat := s.ifStat || lycFires s
      trace := s.trace ++ (if lycFires s then [.raise .stat] else []) } := by
  unfold lycCompare
  rw [raiseIf_stat_frame]
  rfl

theorem enterOam_frame (s : State) :
    enterOam s = { s with
      mode := .oam, ifStat := s.ifStat || s.stat.oamIe
      trace := s.trace ++ (if s.stat.oamIe then [.raise .stat] else []) } := by
  unfold enterOam
  rw [raiseIf_stat_frame]

theorem enterVblank_frame (s : State) :
    enterVblank s = { s with
      mode := .vblank, ifVblank := true, ifStat := s.ifStat || s.stat.vblankIe
      trace := s.trace ++ [.raise .vblank] ++ (if s.stat.vblankIe then [.raise .stat] else []) ++ [.present s.frame] } := by
  unfold enterVblank
  rw [raiseIf_stat_frame]
  rfl

theorem enterHblank_frame (s : State) :
    enterHblank s = { hblankDma (renderLine s.ly { s with mode := .hblank }) with
      ifStat := s.ifStat || s.stat.hblankIe
      trace := s.trace ++ (if s.stat.hblankIe then [.raise .stat] else []) } := by
  unfold enterHblank
  rw [raiseIf_stat_frame]
  simp only [hblankDma_keeps, renderLine_keeps]

@[simp] theorem lycCompare_keeps (s : State) :
    (lycCompare s).cfg = s.cfg ∧ (lycCompare s).lcdc = s.lcdc ∧ (lycCompare s).scy = s.scy ∧
    (lycCompare s).scx = s.scx ∧ (lycCompare s).ly = s.ly ∧ (lycCompare s).lyc = s.lyc ∧ (lycCompare s).bgp = s.bgp ∧
    (lycCompare s).obp0 = s.obp0 ∧ (lycCompare s).obp1 = s.obp1 ∧ (lycCompare s).wy = s.wy ∧
    (lycCompare s).wx = s.wx ∧ (lycCompare s).vbk = s.vbk ∧ (lycCompare s).hdma1 = s.hdma1 ∧
    (lycCompare s).hdma2 = s.hdma2 ∧ (lycCompare s).hdma3 = s.hdma3 ∧ (lycCompare s).hdma4 = s.hdma4 ∧
    (lycCompare s).hdma5 = s.hdma5 ∧ (lycCompare s).bgPal = s.bgPal ∧ (lycCompare s).objPal = s.objPal ∧
    (lycCompare s).mode = s.mode ∧ (lycCompare s).lineCycle = s.lineCycle ∧ (lycCompare s).displayOn = s.displayOn ∧
    (lycCompare s).vram = s.vram ∧ (lycCompare s).oam = s.oam ∧ (lycCompare s).tilePx = s.tilePx ∧
    (lycCompare s).bgShade = s.bgShade ∧ (lycCompare s).objShade0 = s.objShade0 ∧
    (lycCompare s).objShade1 = s.objShade1 ∧ (lycCompare s).sprites = s.sprites ∧
    (lycCompare s).lineColor = s.lineColor ∧ (lycCompare s).lineRaw = s.lineRaw ∧
    (lycCompare s).linePrio = s.linePrio ∧ (lycCompare s).frame = s.frame ∧
    (lycCompare s).hdmaActive = s.hdmaActive ∧ (lycCompare s).hdmaSrc = s.hdmaSrc ∧
    (lycCompare s).hdmaDst = s.hdmaDst ∧ (lycCompare s).ifVblank = s.ifVblank ∧ (lycCompare s).pending = s.pending ∧
    (lycCompare s).answer = s.answer ∧ (lycCompare s).unspecDraws = s.unspecDraws ∧
    (lycCompare s).memReads = s.memReads ∧ (lycCompare s).extMem = s.extMem := by
  rw [lycCompare_frame s]
  exact ⟨
    rfl, rfl, rfl, rfl, rfl, rfl, rfl, rfl, rfl, rfl, rfl, rfl, rfl, rfl, rfl, rfl, rfl, rfl, rfl, rfl, rfl, rfl,
    rfl, rfl, rfl, rfl, rfl, rfl, rfl, rfl, rfl, rfl, rfl, rfl, rfl, rfl, rfl, rfl, rfl, rfl, rfl, rfl⟩

@[simp] theorem enterOam_keeps (s : State) :
    (enterOam s).cfg = s.cfg ∧ (enterOam s).lcdc = s.lcdc ∧ (enterOam s).stat = s.stat ∧ (enterOam s).scy = s.scy ∧
    (enterOam s).scx = s.scx ∧ (enterOam s).ly = s.ly ∧ (enterOam s).lyc = s.lyc ∧ (enterOam s).bgp = s.bgp ∧
    (enterOam s).obp0 = s.obp0 ∧ (enterOam s).obp1 = s.obp1 ∧ (enterOam s).wy = s.wy ∧ (enterOam s).wx = s.wx ∧
    (enterOam s).vbk = s.vbk ∧ (enterOam s).hdma1 = s.hdma1 ∧ (enterOam s).hdma2 = s.hdma2 ∧
    (enterOam s).hdma3 = s.hdma3 ∧ (enterOam s).hdma4 = s.hdma4 ∧ (enterOam s).hdma5 = s.hdma5 ∧
    (enterOam s).bgPal = s.bgPal ∧ (enterOam s).objPal = s.objPal ∧ (enterOam s).lineCycle = s.lineCycle ∧
    (enterOam s).displayOn = s.displayOn ∧ (enterOam s).vram = s.vram ∧ (enterOam s).oam = s.oam ∧
    (enterOam s).tilePx = s.tilePx ∧ (enterOam s).bgShade = s.bgShade ∧ (enterOam s).objShade0 = s.objShade0 ∧
    (enterOam s).objShade1 = s.objShade1 ∧ (enterOam s).sprites = s.sprites ∧ (enterOam s).lineColor = s.lineColor ∧
    (enterOam s).lineRaw = s.lineRaw ∧ (enterOam s).linePrio = s.linePrio ∧ (enterOam s).frame = s.frame ∧
    (enterOam s).hdmaActive = s.hdmaActive ∧ (enterOam s).hdmaSrc = s.hdmaSrc ∧ (enterOam s).hdmaDst = s.hdmaDst ∧
    (enterOam s).ifVblank = s.ifVblank ∧ (enterOam s).pending = s.pending ∧ (enterOam s).answer = s.answer ∧
    (enterOam s).unspecDraws = s.unspecDraws ∧ (enterOam s).memReads = s.memReads ∧ (enterOam s).extMem = s.extMem := by
  rw [enterOam_frame s]
  exact ⟨
    rfl, rfl, rfl, rfl, rfl, rfl, rfl, rfl, rfl, rfl, rfl, rfl, rfl, rfl, rfl, rfl, rfl, rfl, rfl, rfl, rfl, rfl,
    rfl, rfl, rfl, rfl, rfl, rfl, rfl, rfl, rfl, rfl, rfl, rfl, rfl, rfl, rfl, rfl, rfl, rfl, rfl, rfl⟩

@[simp] theorem enterVblank_keeps (s : State) :
    (enterVblank s).cfg = s.cfg ∧ (enterVblank s).lcdc = s.lcdc ∧ (enterVblank s).stat = s.stat ∧
    (enterVblank s).scy = s.scy ∧ (enterVblank s).scx = s.scx ∧ (enterVblank s).ly = s.ly ∧
    (enterVblank s).lyc = s.lyc ∧ (enterVblank s).bgp = s.bgp ∧ (enterVblank s).obp0 = s.obp0 ∧
    (enterVblank s).obp1 = s.obp1 ∧ (enterVblank s).wy = s.wy ∧ (enterVblank s).wx = s.wx ∧
    (enterVblank s).vbk = s.vbk ∧ (enterVblank s).hdma1 = s.hdma1 ∧ (enterVblank s).hdma2 = s.hdma2 ∧
    (enterVblank s).hdma3 = s.hdma3 ∧ (enterVblank s).hdma4 = s.hdma4 ∧ (enterVblank s).hdma5 = s.hdma5 ∧
    (enterVblank s).bgPal = s.bgPal ∧ (enterVblank s).objPal = s.objPal ∧ (enterVblank s).lineCycle = s.lineCycle ∧
    (enterVblank s).displayOn = s.displayOn ∧ (enterVblank s).vram = s.vram ∧ (enterVblank s).oam = s.oam ∧
    (enterVblank s).tilePx = s.tilePx ∧ (enterVblank s).bgShade = s.bgShade ∧
    (enterVblank s).objShade0 = s.objShade0 ∧ (enterVblank s).objShade1 = s.objShade1 ∧
    (enterVblank s).sprites = s.sprites ∧ (enterVblank s).lineColor = s.lineColor ∧
    (enterVblank s).lineRaw = s.lineRaw ∧ (enterVblank s).linePrio = s.linePrio ∧ (enterVblank s).frame = s.frame ∧
    (enterVblank s).hdmaActive = s.hdmaActive ∧ (enterVblank s).hdmaSrc = s.hdmaSrc ∧
    (enterVblank s).hdmaDst = s.hdmaDst ∧ (enterVblank s).pending = s.pending ∧ (enterVblank s).answer = s.answer ∧
    (enterVblank s).unspecDraws = s.unspecDraws ∧ (enterVblank s).memReads = s.memReads ∧
    (enterVblank s).extMem = s.extMem := by
  rw [enterVblank_frame s]
  exact ⟨
    rfl, rfl, rfl, rfl, rfl, rfl, rfl, rfl, rfl, rfl, rfl, rfl, rfl, rfl, rfl, rfl, rfl, rfl, rfl, rfl, rfl, rfl,
    rfl, rfl, rfl, rfl, rfl, rfl, rfl, rfl, rfl, rfl, rfl, rfl, rfl, rfl, rfl, rfl, rfl, rfl, rfl⟩

end Sys2Proof.Machine
end

