-- ==== Sys2Proof/Laws/Store.lean ====
section
/-! SUPPORT. The laws of the sparse stores: read after write, the canonical form, and the keys of video memory and of the
tile cache. -/

namespace Sys2Proof.Machine

variable {α : Type}

/-! ## Read after write -/

theorem storeRead_erase (d : α) (l : List (Nat × α)) (k j : Nat) :
    storeRead d (storeErase l k) j = if j = k then d else storeRead d l j := by
  induction l with
  | nil => simp [storeErase, storeRead]
  | cons c rest ih =>
    by_cases hc : c.1 = k
    · rw [storeErase, if_pos hc, ih, storeRead]
      split_ifs <;> first | rfl | omega
    · rw [storeErase, if_neg hc, storeRead, ih, storeRead]
      split_ifs <;> first | rfl | omega

theorem storeRead_insert (d : α) (l : List (Nat × α)) (k : Nat) (v : α) (j : Nat) (h : storeErase l k = l) :
    storeRead d (storeInsert l k v) j = if j = k then v else storeRead d l j := by
  induction l with
  | nil => by_cases hj : k = j <;> simp [storeInsert, storeRead, hj, eq_comm]
  | cons c rest ih =>
    have hc : c.1 ≠ k := by
      intro hc
      simp only [storeErase, hc, if_true] at h
      have : (storeErase rest k).length ≤ rest.length := by
        clear ih h hc
        induction rest with
        | nil => simp [storeErase]
        | cons e r ihr => simp only [storeErase]; split <;> simp <;> omega
      rw [h] at this
      simp at this
    have hr : storeErase rest k = rest := by simpa [storeErase, hc] using h
    by_cases hk : k < c.1
    · rw [storeInsert, if_pos hk, storeRead]
      simp only [eq_comm]
    · rw [storeInsert, if_neg hk, storeRead, storeRead, ih hr]
      split_ifs <;> first | rfl | omega

theorem storeErase_idem (l : List (Nat × α)) (k : Nat) : storeErase (storeErase l k) k = storeErase l k := by
  induction l with
  | nil => rfl
  | cons c rest ih => by_cases hc : c.1 = k <;> simp [storeErase, hc, ih]

/-- A read after a write: the written key gives the value, every other key what it gave before. -/
@[simp] theorem storeRead_storeWrite [DecidableEq α] (d : α) (l : List (Nat × α)) (k : Nat) (v : α) (j : Nat) :
    storeRead d (storeWrite d l k v) j = if j = k then v else storeRead d l j := by
  unfold storeWrite
  split
  · subst v; exact storeRead_erase d l k j
  · rw [storeRead_insert d _ k v j (storeErase_idem l k), storeRead_erase]
    split <;> rfl

@[simp] theorem storeRead_nil (d : α) (k : Nat) : storeRead d [] k = d := rfl

/-! ## The canonical form -/

/-- Every listed key of `storeErase l k` is listed in `l`. -/
theorem mem_of_mem_storeErase {l : List (Nat × α)} {k : Nat} {e : Nat × α} (h : e ∈ storeErase l k) : e ∈ l ∧ e.1 ≠ k := by
  induction l with
  | nil => simp [storeErase] at h
  | cons c rest ih =>
    by_cases hc : c.1 = k
    · simp only [storeErase, hc, if_true] at h
      exact ⟨List.mem_cons_of_mem _ (ih h).1, (ih h).2⟩
    · simp only [storeErase, hc, if_false, List.mem_cons] at h
      rcases h with rfl | h
      · exact ⟨List.mem_cons_self, hc⟩
      · exact ⟨List.mem_cons_of_mem _ (ih h).1, (ih h).2⟩

theorem mem_storeInsert {l : List (Nat × α)} {k : Nat} {v : α} {e : Nat × α} (h : e ∈ storeInsert l k v) :
    e = (k, v) ∨ e ∈ l := by
  induction l with
  | nil => simpa [storeInsert] using h
  | cons c rest ih =>
    by_cases hk : k < c.1
    · simpa [storeInsert, hk] using h
    · simp only [storeInsert, hk, if_false, List.mem_cons] at h
      rcases h with rfl | h
      · simp
      · rcases ih h with h | h <;> simp [h]

theorem storeWf_erase [DecidableEq α] (d : α) (n : Nat) (l : List (Nat × α)) (k : Nat) (h : storeWf d n l = true) :
    storeWf d n (storeErase l k) = true := by
  induction l with
  | nil => rfl
  | cons c rest ih =>
    simp only [storeWf, Bool.and_eq_true, decide_eq_true_eq, List.all_eq_true] at h
    by_cases hc : c.1 = k
    · simpa [storeErase, hc] using ih h.2
    · simp only [storeErase, hc, if_false, storeWf, Bool.and_eq_true, decide_eq_true_eq, List.all_eq_true]
      exact ⟨⟨h.1.1, fun e he => h.1.2 e (mem_of_mem_storeErase he).1⟩, ih h.2⟩

theorem storeWf_insert [DecidableEq α] (d : α) (n : Nat) (l : List (Nat × α)) (k : Nat) (v : α) (h : storeWf d n l = true)
    (hk : k < n) (hv : v ≠ d) (hl : ∀ e ∈ l, e.1 ≠ k) : storeWf d n (storeInsert l k v) = true := by
  induction l with
  | nil => simp [storeInsert, storeWf, hk, hv]
  | cons c rest ih =>
    have h' := h
    simp only [storeWf, Bool.and_eq_true, decide_eq_true_eq, List.all_eq_true] at h
    by_cases hc : k < c.1
    · simp only [storeInsert, hc, if_true]
      rw [storeWf]
      simp only [h', hk, Bool.and_eq_true, decide_eq_true_eq, List.all_eq_true, List.mem_cons]
      refine ⟨⟨⟨trivial, hv⟩, ?_⟩, trivial⟩
      rintro e (rfl | he)
      · exact hc
      · exact hc.trans (h.1.2 e he)
    · have hne := hl c List.mem_cons_self
      simp only [storeInsert, hc, if_false, storeWf, Bool.and_eq_true, decide_eq_true_eq, List.all_eq_true]
      refine ⟨⟨h.1.1, fun e he => ?_⟩, ih h.2 fun e he => hl e (List.mem_cons_of_mem _ he)⟩
      rcases mem_storeInsert he with rfl | he
      · show c.1 < k
        omega
      · exact h.1.2 e he

/-- A write inside the bound keeps the canonical form. -/
theorem storeWf_storeWrite [DecidableEq α] (d : α) (n : Nat) (l : List (Nat × α)) (k : Nat) (v : α) (hk : k < n)
    (h : storeWf d n l = true) : storeWf d n (storeWrite d l k v) = true := by
  unfold storeWrite
  split
  · exact storeWf_erase d n l k h
  · exact storeWf_insert d n _ k v (storeWf_erase d n l k h) hk ‹_› fun e he => (mem_of_mem_storeErase he).2

/-- Two stores in canonical form that read alike at every key are the same list. -/
theorem store_ext [DecidableEq α] (d : α) (n : Nat) (l r : List (Nat × α)) (hl : storeWf d n l = true)
    (hr : storeWf d n r = true) (h : ∀ k, storeRead d l k = storeRead d r k) : l = r := by
  have low : ∀ (l : List (Nat × α)) (k : Nat), (∀ e ∈ l, k < e.1) → storeRead d l k = d := by
    intro l k
    induction l with
    | nil => intro _; rfl
    | cons c rest ih =>
      intro h
      have h1 := h c List.mem_cons_self
      simp only [storeRead, show c.1 ≠ k by omega, if_false]
      exact ih fun e he => h e (List.mem_cons_of_mem _ he)
  induction l generalizing r with
  | nil =>
    cases r with
    | nil => rfl
    | cons c rest =>
      have := h c.1
      simp only [storeWf, Bool.and_eq_true, decide_eq_true_eq] at hr
      simp [storeRead] at this
      exact absurd this.symm hr.1.1.2
  | cons c rest ih =>
    have hl' := hl
    simp only [storeWf, Bool.and_eq_true, decide_eq_true_eq, List.all_eq_true] at hl
    cases r with
    | nil =>
      have := h c.1
      simp [storeRead] at this
      exact absurd this hl.1.1.2
    | cons e rest' =>
      simp only [storeWf, Bool.and_eq_true, decide_eq_true_eq, List.all_eq_true] at hr
      have hkey : c.1 = e.1 := by
        by_contra hne
        rcases Nat.lt_or_gt_of_ne hne with hlt | hlt
        · have h1 := h c.1
          rw [low (e :: rest') c.1 (by
            intro x hx
            rcases List.mem_cons.1 hx with rfl | hx
            · exact hlt
            · exact hlt.trans (hr.1.2 x hx))] at h1
          simp [storeRead] at h1
          exact hl.1.1.2 h1
        · have h1 := h e.1
          rw [low (c :: rest) e.1 (by
            intro x hx
            rcases List.mem_cons.1 hx with rfl | hx
            · exact hlt
            · exact hlt.trans (hl.1.2 x hx))] at h1
          simp [storeRead] at h1
          exact hr.1.1.2 h1.symm
      have hval : c.2 = e.2 := by simpa [storeRead, hkey] using h c.1
      have hce : c = e := Prod.ext hkey hval
      subst hce
      refine congrArg _ (ih rest' hl.2 hr.2 fun k => ?_)
      by_cases hk : c.1 = k
      · subst hk
        rw [low rest _ hl.1.2, low rest' _ hr.1.2]
      · simpa [storeRead, hk] using h k

/-! ## Keys -/

@[simp] theorem vramKey_inj (b c : Bank) (a x : VramOffset) : vramKey b a = vramKey c x ↔ b = c ∧ a = x := by
  unfold vramKey
  constructor
  · intro h
    constructor <;> apply BitVec.eq_of_toNat_eq <;> omega
  · rintro ⟨rfl, rfl⟩; rfl

theorem vramKey_lt (b : Bank) (a : VramOffset) : vramKey b a < 0x4000 := by unfold vramKey; omega

@[simp] theorem tileKey_inj (b c k j : Bank) (t u : Byte) (r q : BitVec 3) :
    tileKey b k t r = tileKey c j u q ↔ b = c ∧ k = j ∧ t = u ∧ r = q := by
  unfold tileKey
  constructor
  · intro h
    refine ⟨?_, ?_, ?_, ?_⟩ <;> apply BitVec.eq_of_toNat_eq <;> omega
  · rintro ⟨rfl, rfl, rfl, rfl⟩; rfl

theorem tileKey_lt (b k : Bank) (t : Byte) (r : BitVec 3) : tileKey b k t r < 0x2000 := by unfold tileKey; omega

end Sys2Proof.Machine
end

