-- ==== Sys2Proof/Laws/VideoMemory.lean ====
section
/-! SUPPORT. The laws of the memories: a read after a write of video memory, of the tile cache and of the attribute table, and
that every memory operation keeps the canonical form and the coherence of the derived state. -/

namespace Sys2Proof.Machine

/-! ## Tables -/

@[simp] theorem tabulate_getElem {α : Type} (n : Nat) (f : Nat → α) (i : Nat) (h : i < n) : (tabulate n f)[i] = f i := by
  simp [tabulate]

@[simp] theorem at4_tabulate {α : Type} (f : Nat → α) (i : BitVec 2) : at4 (tabulate 4 f) i = f i.toNat := by simp [at4]
@[simp] theorem at8_tabulate {α : Type} (f : Nat → α) (i : BitVec 3) : at8 (tabulate 8 f) i = f i.toNat := by simp [at8]
@[simp] theorem at256_tabulate {α : Type} (f : Nat → α) (i : Byte) : at256 (tabulate 256 f) i = f i.toNat := by simp [at256]
@[simp] theorem spriteAt_refreshSprites (s : State) (n : Fin 40) : spriteAt (refreshSprites s) n = spriteOf s n.val := by
  simp [spriteAt]

theorem at32_set32 {α : Type} (t : Vector α 32) (i j : BitVec 5) (v : α) :
    at32 (set32 t i v) j = if j = i then v else at32 t j := by
  unfold at32 set32
  rw [Vector.getElem_set]
  simp only [BitVec.toNat_inj, eq_comm]

/-! ## Video memory -/

/-- A read after a write of video memory. -/
@[simp] theorem vramRead_vramWrite (b : Bank) (a : VramOffset) (v : Byte) (s : State) (c : Bank) (x : VramOffset) :
    vramRead (vramWrite b a v s) c x = if c = b ∧ x = a then v else vramRead s c x := by
  rw [vramRead, vramWrite_frame]
  simp [vramRead]

theorem bank_cases (k : Bank) : k = 0#1 ∨ k = 1#1 := by revert k; decide

/-- Where the low plane of a row lies under a layout the spec admits, as a number: no offset wraps, and it is even. -/
theorem tileRowOffset_toNat (m : AddrMap) (h : m.layoutWf = true) (k : Bank) (t : Byte) (r : BitVec 3) :
    (tileRowOffset m k t r).toNat = (tileOff m k).toNat + 16 * t.toNat + 2 * r.toNat ∧
    (tileRowOffset m k t r).toNat % 2 = 0 ∧ (tileRowOffset m k t r).toNat + 1 < 0x2000 := by
  have := t.isLt; have := r.isLt
  simp only [AddrMap.layoutWf, List.all_cons, List.all_nil, Bool.and_true, Bool.and_eq_true, decide_eq_true_eq,
    beq_iff_eq, Config.tileBankSize, Config.vramSize] at h
  have ho : (tileOff m k).toNat + 0x1000 ≤ 0x2000 ∧ (tileOff m k).toNat % 2 = 0 := by
    unfold tileOff; split <;> omega
  rw [tileRowOffset, BitVec.toNat_add, BitVec.toNat_ofNat]
  omega

/-- An offset lies in the window of tile bank `k`, in row `r` of stored tile `t`, exactly when it is the row's low or high
plane. -/
theorem rowOf_iff (m : AddrMap) (k : Bank) (a : VramOffset) (t : Byte) (r : BitVec 3) :
    ((a - tileOff m k).toNat < Config.tileBankSize ∧ t = (a - tileOff m k).extractLsb' 4 8 ∧
      r = (a - tileOff m k).extractLsb' 1 3) ↔ a = tileRowOffset m k t r ∨ a = tileRowOffset m k t r + 1#13 := by
  generalize hx : a - tileOff m k = x
  have ha : a = tileOff m k + x := by bv_omega
  have := t.isLt; have := r.isLt; have := x.isLt
  rw [ha, tileRowOffset, BitVec.add_assoc]
  simp only [← BitVec.toNat_inj, BitVec.extractLsb'_toNat, BitVec.toNat_add, BitVec.toNat_ofNat,
    Nat.shiftRight_eq_div_pow, Config.tileBankSize]
  omega

/-- A row of the tile cache after the part of `DecodeOnWrite` about one tile bank. -/
theorem tileRow_decodeBank (b k : Bank) (a : VramOffset) (s : State) (c j : Bank) (t : Byte) (r : BitVec 3) :
    tileRow (decodeBank b k a s) c j t r =
      let p := tileRowOffset s.cfg.map j t r
      if c = b ∧ j = k ∧ (a = p ∨ a = p + 1#13) then decodeRow (vramRead s c p) (vramRead s c (p + 1#13))
      else tileRow s c j t r := by
  unfold decodeBank
  dsimp only
  split
  · rename_i hw
    simp only [tileRow, tileStore_tilePx, storeRead_storeWrite, tileKey_inj]
    by_cases h : c = b ∧ j = k
    · obtain ⟨rfl, rfl⟩ := h
      simp only [true_and, ← rowOf_iff, hw]
      split
      · rename_i h; rw [h.1, h.2]
      · rfl
    · rw [if_neg (fun q => h ⟨q.1, q.2.1⟩), if_neg (fun q => h ⟨q.1, q.2.1⟩)]
  · rename_i hw
    rw [if_neg]
    rintro ⟨-, rfl, h⟩
    exact hw ((rowOf_iff _ _ _ _ _).2 h).1

/-- A row of the tile cache after a write of video memory: the row that the byte belongs to is decoded from the bytes as they
stand after the write; every other row is as before (R261, R263). -/
theorem tileRow_vramWrite (b : Bank) (a : VramOffset) (v : Byte) (s : State) (c k : Bank) (t : Byte) (r : BitVec 3) :
    tileRow (vramWrite b a v s) c k t r =
      let p := tileRowOffset s.cfg.map k t r
      if c = b ∧ (a = p ∨ a = p + 1#13) then
        decodeRow (vramRead (vramWrite b a v s) c p) (vramRead (vramWrite b a v s) c (p + 1#13))
      else tileRow s c k t r := by
  have hr : ∀ x, vramRead (vramWrite b a v s) c x = vramRead (vramStore b a v s) c x := by
    intro x
    rw [vramRead_vramWrite]
    simp [vramRead]
  have hd : ∀ x, vramRead (decodeBank b 1#1 a (vramStore b a v s)) c x = vramRead (vramStore b a v s) c x := by
    intro x
    rw [vramRead, decodeBank_frame]; rfl
  have hc : (decodeBank b 1#1 a (vramStore b a v s)).cfg = s.cfg := by rw [decodeBank_frame]; rfl
  simp only [hr]
  rw [vramWrite, decodeOnWrite, tileRow_decodeBank, tileRow_decodeBank]
  simp only [hd, hc]
  rcases bank_cases k with rfl | rfl
  · simp only [true_and, show ¬ (0#1 : Bank) = 1#1 by decide, false_and, and_false, if_false]; rfl
  · simp only [true_and, show ¬ (1#1 : Bank) = 0#1 by decide, false_and, and_false, if_false]; rfl

/-- The canonical form and the coherence of the cache, which every write of video memory keeps. -/
structure VideoOk (s : State) : Prop where
  vram   : Memory.wf 0x4000 s.vram = true
  tilePx : storeWf blankRow 0x2000 s.tilePx = true
  tiles  : TilesCoherent s

theorem decodeBank_wf (b k : Bank) (a : VramOffset) (s : State)
    (h : storeWf blankRow 0x2000 s.tilePx = true) : storeWf blankRow 0x2000 (decodeBank b k a s).tilePx = true := by
  unfold decodeBank
  dsimp only
  split
  · exact storeWf_storeWrite _ _ _ _ _ (tileKey_lt _ _ _ _) h
  · exact h

theorem vramWrite_ok (b : Bank) (a : VramOffset) (v : Byte) (s : State) (h : VideoOk s) : VideoOk (vramWrite b a v s) where
  vram := by
    rw [vramWrite_frame]
    exact storeWf_storeWrite _ _ _ _ _ (vramKey_lt b a) h.vram
  tilePx := decodeBank_wf _ _ _ _ (decodeBank_wf _ _ _ _ h.tilePx)
  tiles := by
    intro c k t r
    have hc : (vramWrite b a v s).cfg = s.cfg := by simp
    dsimp only
    rw [hc, tileRow_vramWrite]
    dsimp only
    split
    · rfl
    · rename_i hno
      rw [h.tiles c k t r, vramRead_vramWrite, vramRead_vramWrite, if_neg, if_neg]
      · rintro ⟨h1, h2⟩; exact hno ⟨h1, .inr h2.symm⟩
      · rintro ⟨h1, h2⟩; exact hno ⟨h1, .inl h2.symm⟩

/-- `VideoOk` is about the address map, video memory and the tile cache only. -/
theorem VideoOk.congr {s t : State} (h : VideoOk s) (hc : t.cfg = s.cfg) (hv : t.vram = s.vram) (ht : t.tilePx = s.tilePx) :
    VideoOk t where
  vram := hv ▸ h.vram
  tilePx := ht ▸ h.tilePx
  tiles := fun b k tl r => by
    simp only [tileRow, vramRead, hv, ht, hc]
    exact h.tiles b k tl r

theorem copyByte_ok (src : BusAddr) (dst : VramOffset) (s : State) (k : Nat) (h : VideoOk s) :
    VideoOk (copyByte src dst s k) :=
  vramWrite_ok _ _ _ _ (h.congr rfl rfl rfl)

theorem foldl_ok {β : Type} (f : State → β → State) (hf : ∀ s b, VideoOk s → VideoOk (f s b)) (l : List β) (s : State)
    (h : VideoOk s) : VideoOk (l.foldl f s) := by
  induction l generalizing s with
  | nil => exact h
  | cons b l ih => exact ih _ (hf s b h)

theorem copyBlock_ok (src : BusAddr) (dst : VramOffset) (s : State) (h : VideoOk s) : VideoOk (copyBlock src dst s) :=
  foldl_ok _ (fun s k h => copyByte_ok src dst s k h) _ s h

theorem copyBlocks_ok (src : BusAddr) (dst : VramOffset) (n : Nat) (s : State) (h : VideoOk s) :
    VideoOk (copyBlocks src dst n s) :=
  foldl_ok _ (fun s _ h => copyBlock_ok _ _ s h) _ s h

theorem hblankDma_ok (s : State) (h : VideoOk s) : VideoOk (hblankDma s) := by
  unfold hblankDma
  split
  · have hc := copyBlock_ok s.hdmaSrc s.hdmaDst s h
    rw [hdmaBlock_frame]
    exact VideoOk.congr hc (by simp) rfl rfl
  · exact h

/-! ## What a copy reads and writes -/

/-- A read after one copied byte. -/
theorem vramRead_copyByte (src : BusAddr) (dst : VramOffset) (s : State) (k : Nat) (c : Bank) (x : VramOffset) :
    vramRead (copyByte src dst s k) c x =
      if c = s.vbk ∧ x = dst + BitVec.ofNat 13 k then memAnswer s 0 (src + BitVec.ofNat 16 k) else vramRead s c x := by
  rw [vramRead, copyByte_frame]
  simp [vramRead]

/-- What the external memory answers depends on how many bytes were asked, and on what the environment declared. -/
theorem memAnswer_shift (s t : State) (n j : Nat) (a : BusAddr) (hm : t.memReads = s.memReads + n)
    (he : t.extMem = s.extMem) : memAnswer t j a = memAnswer s (n + j) a := by
  simp only [memAnswer, hm, he, Nat.add_assoc]

/-! ## The attribute table -/

@[simp] theorem oamRead_oamStore (i : Nat) (v : Byte) (s : State) (j : Nat) :
    oamRead (oamStore i v s) j = if j = i then v else oamRead s j := by
  simp [oamRead]

theorem oamStore_wf (i : Nat) (v : Byte) (s : State) (hi : i < 160) (h : Memory.wf 160 s.oam = true) :
    Memory.wf 160 (oamStore i v s).oam = true :=
  storeWf_storeWrite _ _ _ _ _ hi h

/-- The stores of the reset state are in canonical form. -/
theorem reset_stores_wf : StoresCanonical State.reset := ⟨rfl, rfl, rfl⟩

/-- The descriptor of an entry depends on the table and on `LCDC` only. -/
theorem spriteOf_congr {s t : State} (ho : t.oam = s.oam) (hl : t.lcdc = s.lcdc) (n : Nat) : spriteOf t n = spriteOf s n := by
  simp only [spriteOf, oamRead, ho, hl]

end Sys2Proof.Machine
end

