-- ==== Sys2Proof/Laws/Compositor.lean ====
section
/-! SUPPORT. The laws of the compositor, column by column: what each of its steps leaves in the line buffers. -/

namespace Sys2Proof.Machine

/-! ## Background and window -/

@[simp] theorem lineRaw_renderBackground (ly : Byte) (s : State) (x : Byte) :
    at256 (renderBackground ly s).lineRaw x = (bgPixel s ly x.toNat).raw := by simp
@[simp] theorem linePrio_renderBackground (ly : Byte) (s : State) (x : Byte) :
    at256 (renderBackground ly s).linePrio x = (bgPixel s ly x.toNat).prio := by simp
@[simp] theorem lineColor_renderBackground (ly : Byte) (s : State) (x : Byte) :
    at256 (renderBackground ly s).lineColor x = (bgPixel s ly x.toNat).color := by simp

/-- A fetched pixel does not depend on the line buffers, so the window after the background is the window before it. -/
theorem windowAt_renderBackground (ly l : Byte) (s : State) (x : Nat) :
    windowAt (renderBackground ly s) l x = windowAt s l x := rfl

/-- What background and window leave at a column (R312 to R323). -/
def layersAt (s : State) (ly : Byte) (x : Nat) : LayerPixel := (windowAt s ly x).getD (bgPixel s ly x)

theorem lineRaw_layers (ly : Byte) (s : State) (x : Byte) :
    at256 (renderWindow ly (renderBackground ly s)).lineRaw x = (layersAt s ly x.toNat).raw := by
  simp only [renderWindow, at256_tabulate, windowAt_renderBackground, layersAt]
  cases windowAt s ly x.toNat <;> simp
theorem linePrio_layers (ly : Byte) (s : State) (x : Byte) :
    at256 (renderWindow ly (renderBackground ly s)).linePrio x = (layersAt s ly x.toNat).prio := by
  simp only [renderWindow, at256_tabulate, windowAt_renderBackground, layersAt]
  cases windowAt s ly x.toNat <;> simp
theorem lineColor_layers (ly : Byte) (s : State) (x : Byte) :
    at256 (renderWindow ly (renderBackground ly s)).lineColor x = (layersAt s ly x.toNat).color := by
  simp only [renderWindow, at256_tabulate, windowAt_renderBackground, layersAt]
  cases windowAt s ly x.toNat <;> simp

/-! ## Sprites -/

/-- What one sprite puts at a column of a scanline it covers, if anything (R333, R334). -/
def spriteAtColumn (s : State) (sp : Sprite) (ly : Byte) (h x : Nat) : Option Color :=
  if sp.x ≤ (x : Int) ∧ (x : Int) < sp.x + 8 ∧ spriteRaw s sp ly h ((x : Int) - sp.x).toNat ≠ 0#2 ∧
      spriteWins s sp.opts x = true then
    some (objColor s sp.opts (spriteRaw s sp ly h ((x : Int) - sp.x).toNat))
  else none

/-- One column of a sprite. -/
theorem lineColor_drawSpriteColumn (sp : Sprite) (ly : Byte) (h : Nat) (s : State) (i : Nat) (x : Byte) :
    at256 (drawSpriteColumn sp ly h s i).lineColor x =
      if sp.x + (i : Int) = (x.toNat : Int) ∧ spriteRaw s sp ly h i ≠ 0#2 ∧ spriteWins s sp.opts x.toNat = true then
        objColor s sp.opts (spriteRaw s sp ly h i)
      else at256 s.lineColor x := by
  have hx := x.isLt
  unfold drawSpriteColumn
  dsimp only
  split
  · rename_i h1
    rw [if_neg]
    rintro ⟨h2, h3, -⟩
    rcases h1 with h1 | h1 | h1
    · omega
    · omega
    · exact h3 h1
  · rename_i h1
    simp only [not_or] at h1
    split
    · rename_i hw
      simp only [at256, Vector.getElem_setIfInBounds]
      by_cases he : sp.x + (i : Int) = (x.toNat : Int)
      · have : (sp.x + (i : Int)).toNat = x.toNat := by omega
        rw [if_pos this, if_pos ⟨he, h1.2.2, this ▸ hw⟩]
      · rw [if_neg (by omega), if_neg (fun hh => he hh.1)]
    · rename_i hw
      rw [if_neg]
      rintro ⟨he, -, h3⟩
      have : (sp.x + (i : Int)).toNat = x.toNat := by omega
      exact hw (this ▸ h3)

/-- The first `n` columns of a sprite. -/
theorem lineColor_foldl_columns (sp : Sprite) (ly : Byte) (h : Nat) (s : State) (n : Nat) (x : Byte) :
    at256 ((List.range n).foldl (drawSpriteColumn sp ly h) s).lineColor x =
      if sp.x ≤ (x.toNat : Int) ∧ (x.toNat : Int) < sp.x + n ∧ spriteRaw s sp ly h ((x.toNat : Int) - sp.x).toNat ≠ 0#2 ∧
          spriteWins s sp.opts x.toNat = true then
        objColor s sp.opts (spriteRaw s sp ly h ((x.toNat : Int) - sp.x).toNat)
      else at256 s.lineColor x := by
  induction n with
  | zero =>
    rw [if_neg]
    · rfl
    · omega
  | succ n ih =>
    rw [List.range_succ, List.foldl_append, List.foldl_cons, List.foldl_nil, lineColor_drawSpriteColumn, ih,
      foldl_lineColor_frame _ (fun s i => drawSpriteColumn_frame sp ly h s i)]
    have hr : ∀ c, spriteRaw { s with lineColor := c } sp ly h n = spriteRaw s sp ly h n := fun _ => rfl
    have hw : ∀ c, spriteWins { s with lineColor := c } sp.opts x.toNat = spriteWins s sp.opts x.toNat := fun _ => rfl
    have ho : ∀ c r, objColor { s with lineColor := c } sp.opts r = objColor s sp.opts r := fun _ _ => rfl
    rw [hr, hw, ho]
    by_cases he : sp.x + (n : Int) = (x.toNat : Int)
    · have hn : ((x.toNat : Int) - sp.x).toNat = n := by omega
      simp only [hn]
      by_cases hp : spriteRaw s sp ly h n ≠ 0#2 ∧ spriteWins s sp.opts x.toNat = true
      · rw [if_pos ⟨he, hp⟩, if_pos ⟨by omega, by push_cast; omega, hp⟩]
      · rw [if_neg (fun q => hp q.2), if_neg (fun q => hp q.2.2), if_neg (fun q => hp q.2.2)]
    · rw [if_neg (fun q => he q.1)]
      congr 1
      simp only [eq_iff_iff]
      push_cast
      constructor
      · rintro ⟨q1, q2, q3⟩; exact ⟨q1, by omega, q3⟩
      · rintro ⟨q1, q2, q3⟩; exact ⟨q1, by omega, q3⟩

/-- One sprite (R333). -/
theorem lineColor_drawSprite (sp : Sprite) (ly : Byte) (h : Nat) (s : State) (x : Byte) :
    at256 (drawSprite sp ly h s).lineColor x = (spriteAtColumn s sp ly h x.toNat).getD (at256 s.lineColor x) := by
  rw [drawSprite, lineColor_foldl_columns, spriteAtColumn]
  push_cast
  split <;> rfl

/-- A run of sprites, drawn from the last to the first: the first that shows is the one seen (R332). -/
theorem lineColor_foldl_sprites (ly : Byte) (h : Nat) (l : List (Fin 40)) (s : State) (x : Byte) :
    at256 (l.reverse.foldl (fun t n => drawSprite (spriteAt t n) ly h t) s).lineColor x =
      (l.findSome? fun n => spriteAtColumn s (spriteAt s n) ly h x.toNat).getD (at256 s.lineColor x) := by
  induction l with
  | nil => rfl
  | cons n l ih =>
    rw [List.reverse_cons, List.foldl_append, List.foldl_cons, List.foldl_nil, lineColor_drawSprite, ih,
      foldl_lineColor_frame (fun t n => drawSprite (spriteAt t n) ly h t) (fun t n => drawSprite_frame _ ly h t)]
    have hs : ∀ c, spriteAtColumn { s with lineColor := c } (spriteAt { s with lineColor := c } n) ly h x.toNat =
        spriteAtColumn s (spriteAt s n) ly h x.toNat := fun _ => rfl
    rw [hs, List.findSome?_cons]
    cases spriteAtColumn s (spriteAt s n) ly h x.toNat <;> rfl

/-- The sprite layer (R330). -/
theorem lineColor_renderSprites (ly : Byte) (s : State) (x : Byte) :
    at256 (renderSprites ly s).lineColor x =
      if objEn s then
        ((selectSprites s ly (spriteHeight s)).findSome? fun n =>
          spriteAtColumn s (spriteAt s n) ly (spriteHeight s) x.toNat).getD (at256 s.lineColor x)
      else at256 s.lineColor x := by
  unfold renderSprites
  split
  · exact lineColor_foldl_sprites ly _ _ s x
  · rfl

/-! ## The row committed to the frame -/

theorem frame_renderLine (ly : Byte) (s : State) (y : Nat) (h : y < 144) :
    (renderLine ly s).frame[y] = if y = ly.toNat then (renderLine ly s).lineColor else s.frame[y] := by
  rw [renderLine_frame]
  simp only [Vector.getElem_setIfInBounds, eq_comm]

end Sys2Proof.Machine
end

