-- ==== Sys2Proof/Laws/Encoding.lean ====
section
/-! SUPPORT. The laws of the trace words: what each format decodes to, what a word of each format is made of, and what an
address selects under an address map the spec admits. -/

namespace Sys2Proof

/-! ## Words and fields as numbers -/

theorem toNat_append_add {n m : Nat} (x : BitVec n) (y : BitVec m) : (x ++ y).toNat = x.toNat * 2 ^ m + y.toNat := by
  rw [BitVec.toNat_append, ← Nat.shiftLeft_add_eq_or_of_lt y.isLt, Nat.shiftLeft_eq]

theorem busWrite_toNat (a : BusAddr) (v : Byte) : (busWrite a v).toNat = 0x40000000 + a.toNat * 256 + v.toNat := by
  have h : (busWrite a v).toNat = ((0b01#2 ++ 0#6 ++ a) ++ v).toNat := rfl
  rw [h, toNat_append_add, toNat_append_add, toNat_append_add]
  simp
  omega

theorem busRead_toNat (a : BusAddr) : (busRead a).toNat = a.toNat * 256 := by
  have h : (busRead a).toNat = ((0b00#2 ++ 0#6 ++ a) ++ 0#8).toNat := rfl
  rw [h, toNat_append_add, toNat_append_add]
  norm_num

theorem stepWord_toNat (n : BitVec 30) : (stepWord n).toNat = 0x80000000 + n.toNat := by
  have h : (stepWord n).toNat = (0b10#2 ++ n).toNat := rfl
  rw [h, toNat_append_add]
  norm_num

theorem kind_toNat (w : TraceWord) : (TraceWord.kind w).toNat = w.toNat / 0x40000000 := by
  have := w.isLt
  simp only [TraceWord.kind, BitVec.extractLsb'_toNat, Nat.shiftRight_eq_div_pow]
  omega

theorem low30_toNat (w : TraceWord) : (TraceWord.low30 w).toNat = w.toNat % 0x40000000 := by
  simp only [TraceWord.low30, BitVec.extractLsb'_toNat, Nat.shiftRight_eq_div_pow]
  omega

theorem busZero_toNat (w : TraceWord) : (TraceWord.busZero w).toNat = w.toNat / 0x1000000 % 64 := by
  simp only [TraceWord.busZero, BitVec.extractLsb'_toNat, Nat.shiftRight_eq_div_pow]

theorem addr_toNat (w : TraceWord) : (TraceWord.addr w).toNat = w.toNat / 256 % 65536 := by
  simp only [TraceWord.addr, BitVec.extractLsb'_toNat, Nat.shiftRight_eq_div_pow]

theorem data_toNat (w : TraceWord) : (TraceWord.data w).toNat = w.toNat % 256 := by
  simp only [TraceWord.data, BitVec.extractLsb'_toNat, Nat.shiftRight_eq_div_pow]
  omega

/-! ## What a word of each format decodes to -/

theorem decode_busWrite (m : AddrMap) (a : BusAddr) (v : Byte) : decode m (busWrite a v) = some (decodeWrite m a v) := by
  have := a.isLt; have := v.isLt
  have hk : TraceWord.kind (busWrite a v) = 0b01#2 := by
    apply BitVec.eq_of_toNat_eq; rw [kind_toNat, busWrite_toNat]; simp; omega
  have hz : TraceWord.busZero (busWrite a v) = 0#6 := by
    apply BitVec.eq_of_toNat_eq; rw [busZero_toNat, busWrite_toNat]; simp; omega
  have ha : TraceWord.addr (busWrite a v) = a := by
    apply BitVec.eq_of_toNat_eq; rw [addr_toNat, busWrite_toNat]; omega
  have hd : TraceWord.data (busWrite a v) = v := by
    apply BitVec.eq_of_toNat_eq; rw [data_toNat, busWrite_toNat]; omega
  simp [decode, hk, hz, ha, hd]

theorem decode_busRead (m : AddrMap) (a : BusAddr) : decode m (busRead a) = some (decodeRead m a) := by
  have := a.isLt
  have hk : TraceWord.kind (busRead a) = 0b00#2 := by
    apply BitVec.eq_of_toNat_eq; rw [kind_toNat, busRead_toNat]; simp; omega
  have hz : TraceWord.busZero (busRead a) = 0#6 := by
    apply BitVec.eq_of_toNat_eq; rw [busZero_toNat, busRead_toNat]; simp; omega
  have ha : TraceWord.addr (busRead a) = a := by
    apply BitVec.eq_of_toNat_eq; rw [addr_toNat, busRead_toNat]; omega
  have hd : TraceWord.data (busRead a) = 0#8 := by
    apply BitVec.eq_of_toNat_eq; rw [data_toNat, busRead_toNat]; simp
  simp [decode, hk, hz, ha, hd]

theorem decode_stepWord (m : AddrMap) (n : BitVec 30) : decode m (stepWord n) = some (.step (n.toNat : Int)) := by
  have := n.isLt
  have hk : TraceWord.kind (stepWord n) = 0b10#2 := by
    apply BitVec.eq_of_toNat_eq; rw [kind_toNat, stepWord_toNat]; simp; omega
  have hl : (TraceWord.low30 (stepWord n)).toNat = n.toNat := by
    rw [low30_toNat, stepWord_toNat]; omega
  simp [decode, hk, hl]

theorem decode_resetWord (m : AddrMap) : decode m resetWord = some .reset := rfl

/-! ## The word put together from its fields -/

theorem eq_busWrite (w : TraceWord) (hk : TraceWord.kind w = 0b01#2) (hz : TraceWord.busZero w = 0#6) :
    w = busWrite (TraceWord.addr w) (TraceWord.data w) := by
  apply BitVec.eq_of_toNat_eq
  have h1 := kind_toNat w; have h2 := busZero_toNat w
  rw [hk] at h1; rw [hz] at h2
  rw [busWrite_toNat, addr_toNat, data_toNat]
  simp at h1 h2
  omega

theorem eq_busRead (w : TraceWord) (hk : TraceWord.kind w = 0b00#2) (hz : TraceWord.busZero w = 0#6)
    (hd : TraceWord.data w = 0#8) : w = busRead (TraceWord.addr w) := by
  apply BitVec.eq_of_toNat_eq
  have h1 := kind_toNat w; have h2 := busZero_toNat w; have h3 := data_toNat w
  rw [hk] at h1; rw [hz] at h2; rw [hd] at h3
  rw [busRead_toNat, addr_toNat]
  simp at h1 h2 h3
  omega

theorem eq_stepWord (w : TraceWord) (hk : TraceWord.kind w = 0b10#2) : w = stepWord (TraceWord.low30 w) := by
  apply BitVec.eq_of_toNat_eq
  have h1 := kind_toNat w
  rw [hk] at h1
  rw [stepWord_toNat, low30_toNat]
  simp at h1
  omega

theorem eq_resetWord (w : TraceWord) (hk : TraceWord.kind w = 0b11#2) (hl : TraceWord.low30 w = 0#30) : w = resetWord := by
  apply BitVec.eq_of_toNat_eq
  have h1 := kind_toNat w; have h2 := low30_toNat w
  rw [hk] at h1; rw [hl] at h2
  have h3 : resetWord.toNat = 0xC0000000 := by decide
  simp at h1 h2
  omega

/-! ## What an address selects -/

/-- The register that `findReg` gives has the address. -/
theorem AddrMap.regAddr_of_findReg {m : AddrMap} {a : BusAddr} {r : Reg} (h : m.findReg a = some r) : m.regAddr r = a := by
  have := List.find?_some h
  simpa using this

theorem Reg.mem_all (r : Reg) : r ∈ Reg.all := by cases r <;> decide

/-- Under a map the spec admits no two registers share an address. -/
theorem AddrMap.regAddr_inj {m : AddrMap} (h : m.wf = true) {r q : Reg} (e : m.regAddr r = m.regAddr q) : r = q := by
  have hn : (Reg.all.map m.regAddr).Nodup := by
    simp only [AddrMap.wf, Bool.and_eq_true, decide_eq_true_eq] at h
    exact (List.nodup_cons.1 h.1.2).2
  exact List.inj_on_of_nodup_map hn (Reg.mem_all r) (Reg.mem_all q) e

/-- Under a map the spec admits no register lies in a window. -/
theorem AddrMap.regAddr_outside {m : AddrMap} (h : m.wf = true) (r : Reg) :
    m.inVram (m.regAddr r) = false ∧ m.inOam (m.regAddr r) = false := by
  simp only [AddrMap.wf, Bool.and_eq_true, List.all_eq_true, Bool.not_eq_true'] at h
  exact h.2 _ (List.mem_cons_of_mem _ (List.mem_map_of_mem (Reg.mem_all r)))

theorem AddrMap.findReg_regAddr {m : AddrMap} (h : m.wf = true) (r : Reg) : m.findReg (m.regAddr r) = some r := by
  cases hf : m.findReg (m.regAddr r) with
  | some q => rw [AddrMap.regAddr_inj h (AddrMap.regAddr_of_findReg hf)]
  | none =>
    have := List.find?_eq_none.1 hf r (Reg.mem_all r)
    simp at this

/-- The windows of a map the spec admits lie inside the bus space and apart from each other (R84). -/
theorem AddrMap.windows {m : AddrMap} (h : m.wf = true) :
    m.vramBase.toNat + 0x2000 ≤ 0x10000 ∧ m.oamBase.toNat + 0xA0 ≤ 0x10000 ∧
    (m.vramBase.toNat + 0x2000 ≤ m.oamBase.toNat ∨ m.oamBase.toNat + 0xA0 ≤ m.vramBase.toNat) := by
  simp only [AddrMap.wf, Bool.and_eq_true, decide_eq_true_eq, Bool.or_eq_true, Config.vramSize, Config.oamSize] at h
  exact ⟨h.1.1.1.1, h.1.1.1.2, h.1.1.2⟩

theorem AddrMap.select_regAddr {m : AddrMap} (h : m.wf = true) (r : Reg) : m.select (m.regAddr r) = .reg r := by
  have ho := AddrMap.regAddr_outside h r
  unfold AddrMap.inVram AddrMap.inOam at ho
  simp only [Bool.and_eq_false_iff, decide_eq_false_iff_not] at ho
  unfold AddrMap.select
  rw [if_neg (by omega), dif_neg (by omega), AddrMap.findReg_regAddr h]

/-- The block answers an address exactly when the address selects something (R86). -/
theorem AddrMap.select_eq_unmapped {m : AddrMap} (a : BusAddr) : m.select a = .unmapped ↔ m.answers a = false := by
  have hf : m.isReg a = false ↔ m.findReg a = none := by
    unfold AddrMap.isReg AddrMap.findReg; simp
  unfold AddrMap.select AddrMap.answers AddrMap.inVram AddrMap.inOam
  simp only [Bool.or_eq_false_iff, hf, Bool.and_eq_false_iff, decide_eq_false_iff_not]
  split
  · constructor
    · intro h; cases h
    · rintro ⟨⟨h1, h2⟩, h3⟩; omega
  · split
    · constructor
      · intro h; cases h
      · rintro ⟨⟨h1, h2⟩, h3⟩; omega
    · split
      · simp_all
      · simp_all
        omega

end Sys2Proof
end

