-- ==== Sys2Proof/Laws/Palette.lean ====
section
/-! SUPPORT. The laws of the palettes and of the colour-DMA addresses. -/

namespace Sys2Proof.Machine

/-- The raw value at an entry after a data port write: the addressed entry has one half replaced (R286). -/
theorem palDataWrite_raw (v : Byte) (p : PalPort) (e : BitVec 5) :
    at32 (palDataWrite v p).raw e =
      if e = palEntry p.index then mergeHalf (palHalf p.index) (at32 p.raw (palEntry p.index)) v else at32 p.raw e :=
  at32_set32 _ _ _ _

/-- The display colour at an entry after a data port write (R286). -/
theorem palDataWrite_rgb (v : Byte) (p : PalPort) (e : BitVec 5) :
    at32 (palDataWrite v p).rgb e =
      if e = palEntry p.index then scale15 (mergeHalf (palHalf p.index) (at32 p.raw (palEntry p.index)) v)
      else at32 p.rgb e :=
  at32_set32 _ _ _ _

/-- A data port write keeps the display colours those of the raw values (R52). -/
theorem palDataWrite_coherent (v : Byte) (p : PalPort) (h : p.Coherent) : (palDataWrite v p).Coherent := by
  intro e
  rw [palDataWrite_raw, palDataWrite_rgb]
  split
  · rfl
  · exact h e

/-- An entry of a monochrome table is the 2-bit field of its register (R133, R281). -/
theorem at4_shadeTable (p : Byte) (i : BitVec 2) : at4 (shadeTable p) i = p.extractLsb' (2 * i.toNat) 2 := by
  rw [shadeTable, at4_tabulate, shade]
  ext j hj
  simp

/-- `DmaSrc()` as a number (R134). -/
theorem dmaSrc_toNat (s : State) : (dmaSrc s).toNat = (s.hdma1.toNat * 256 + s.hdma2.toNat) / 16 * 16 := by
  have h : ∀ x : BitVec 16, (x &&& 0xFFF0#16).toNat = x.toNat / 16 * 16 := by
    intro x
    have e : x &&& 0xFFF0#16 = (x >>> 4) <<< 4 := by
      ext i hi
      interval_cases i <;> simp
    rw [e, BitVec.toNat_shiftLeft, BitVec.toNat_ushiftRight, Nat.shiftLeft_eq, Nat.shiftRight_eq_div_pow]
    omega
  rw [dmaSrc, h, BitVec.toNat_append, ← Nat.shiftLeft_add_eq_or_of_lt s.hdma2.isLt, Nat.shiftLeft_eq]

/-- `DmaDst()` as a number (R135). -/
theorem dmaDst_toNat (s : State) : (dmaDst s).toNat = (s.hdma3.toNat * 256 + s.hdma4.toNat) % 0x2000 / 16 * 16 := by
  have h : ∀ x : BitVec 16, ((x &&& 0x1FF0#16).setWidth 13).toNat = x.toNat % 0x2000 / 16 * 16 := by
    intro x
    have e : (x &&& 0x1FF0#16).setWidth 13 = ((x.setWidth 13) >>> 4) <<< 4 := by
      ext i hi
      interval_cases i <;> simp
    rw [e, BitVec.toNat_shiftLeft, BitVec.toNat_ushiftRight, BitVec.toNat_setWidth, Nat.shiftLeft_eq,
      Nat.shiftRight_eq_div_pow]
    omega
  rw [dmaDst, h, BitVec.toNat_append, ← Nat.shiftLeft_add_eq_or_of_lt s.hdma4.isLt, Nat.shiftLeft_eq]

/-! ## What a copy leaves in video memory -/

/-- `n` bytes copied one after another: the bytes asked for, and every byte of video memory after it (R358). -/
theorem foldl_copyByte (src : BusAddr) (dst : VramOffset) (n : Nat) (hn : n ≤ 8192) (s : State) :
    let t := (List.range n).foldl (copyByte src dst) s
    t.memReads = s.memReads + n ∧ t.extMem = s.extMem ∧ t.vbk = s.vbk ∧
    ∀ c x, vramRead t c x = if c = s.vbk ∧ (x - dst).toNat < n then
      memAnswer s (x - dst).toNat (src + BitVec.ofNat 16 (x - dst).toNat) else vramRead s c x := by
  induction n with
  | zero => simp
  | succ n ih =>
    obtain ⟨h1, h2, h3, h4⟩ := ih (by omega)
    simp only [List.range_succ, List.foldl_append, List.foldl_cons, List.foldl_nil]
    set t := (List.range n).foldl (copyByte src dst) s
    refine ⟨?_, by rw [copyByte_frame]; exact h2, by rw [copyByte_frame]; exact h3, fun c x => ?_⟩
    · rw [copyByte_frame]
      show t.memReads + 1 = _
      omega
    · rw [vramRead_copyByte, h3, memAnswer_shift s t n 0 _ h1 h2, h4]
      by_cases hc : c = s.vbk
      · have hx : x = dst + BitVec.ofNat 13 n ↔ (x - dst).toNat = n := by
          rw [show n = (BitVec.ofNat 13 n).toNat by rw [BitVec.toNat_ofNat]; omega, BitVec.toNat_inj, BitVec.ofNat_toNat,
            BitVec.setWidth_eq]
          constructor
          · rintro rfl; simp
          · intro h; rw [← h]; simp
        simp only [hc, true_and, hx]
        generalize (x - dst).toNat = d
        by_cases he : d = n
        · rw [if_pos he, if_pos (by omega), he, Nat.add_zero]
        · rw [if_neg he]
          congr 1
          simp only [eq_iff_iff]
          omega
      · simp [hc]

/-- A run of blocks is one run of bytes: both addresses go on from one block to the next (R353, R359). -/
theorem copyBlocks_eq (src : BusAddr) (dst : VramOffset) (n : Nat) (s : State) :
    copyBlocks src dst n s = (List.range (16 * n)).foldl (copyByte src dst) s := by
  induction n with
  | zero => simp [copyBlocks]
  | succ n ih =>
    unfold copyBlocks at ih ⊢
    rw [List.range_succ, List.foldl_append, ih, List.foldl_cons, List.foldl_nil, show 16 * (n + 1) = 16 * n + 16 by ring,
      List.range_add, List.foldl_append, List.foldl_map]
    unfold copyBlock
    congr 1
    funext t k
    simp [copyByte, BitVec.ofNat_add, BitVec.add_assoc]

end Sys2Proof.Machine
end

