-- ==== Sys2Proof/Laws/PerInstr.lean ====
section
/-! SUPPORT. Per operation: the format of its word. The family is `WordForm`. -/

namespace Sys2Proof.Laws.WordForm

open Sys2Proof Sys2Proof.Machine

/-- The word of the operation has the kind and the zero bits of its format, under every address map (R120 to R123). -/
def Statement (i : Instr) : Prop :=
  ∀ m : AddrMap,
    (i = .reset → (encode m i).toNat = 0xC0000000) ∧
    (isStep i = true → TraceWord.kind (encode m i) = 0b10#2) ∧
    (isRead i = true → (encode m i).toNat < 0x1000000 ∧ (encode m i).toNat % 256 = 0) ∧
    (i ≠ .reset → isStep i = false → isRead i = false →
      0x40000000 ≤ (encode m i).toNat ∧ (encode m i).toNat < 0x41000000)

/-- A word of kind `WR` has its form. -/
theorem write_form (a : BusAddr) (v : Byte) :
    0x40000000 ≤ (busWrite a v).toNat ∧ (busWrite a v).toNat < 0x41000000 := by
  have := a.isLt; have := v.isLt
  rw [busWrite_toNat]
  omega

/-- A word of kind `RD` has its form. -/
theorem read_form (a : BusAddr) : (busRead a).toNat < 0x1000000 ∧ (busRead a).toNat % 256 = 0 := by
  have := a.isLt
  rw [busRead_toNat]
  omega

theorem of_write (i : Instr) (hs : isStep i = false) (hr : isRead i = false) (hi : i ≠ .reset)
    (h : ∀ m, ∃ a v, encode m i = busWrite a v) : Statement i := by
  intro m
  obtain ⟨a, v, e⟩ := h m
  rw [e, hs, hr]
  exact ⟨fun h => absurd h hi, fun h => (by cases h), fun h => (by cases h), fun _ _ _ => write_form a v⟩

theorem of_read (i : Instr) (hs : isStep i = false) (hr : isRead i = true) (hi : i ≠ .reset)
    (h : ∀ m, ∃ a, encode m i = busRead a) : Statement i := by
  intro m
  obtain ⟨a, e⟩ := h m
  rw [e, hs, hr]
  exact ⟨fun h => absurd h hi, fun h => (by cases h), fun _ => read_form a, fun _ _ h => (by cases h)⟩

theorem reset : Statement .reset := fun _ =>
  ⟨fun _ => rfl, fun h => (by cases h), fun h => (by cases h), fun h => absurd rfl h⟩

theorem step (n : Int) : Statement (.step n) := fun m => by
  refine ⟨fun h => (by cases h), fun _ => ?_, fun h => (by cases h), fun _ h => (by cases h)⟩
  apply BitVec.eq_of_toNat_eq
  have := (BitVec.ofNat 30 n.toNat).isLt
  rw [kind_toNat, encode, stepWord_toNat]
  simp only [BitVec.toNat_ofNat] at *
  omega

theorem wrLcdc (v : Byte) : Statement (.wrLcdc v) :=
  of_write _ rfl rfl (by simp) fun _ => ⟨_, _, rfl⟩

theorem rdLcdc : Statement .rdLcdc := of_read _ rfl rfl (by simp) fun _ => ⟨_, rfl⟩

theorem wrStat (v : Byte) : Statement (.wrStat v) :=
  of_write _ rfl rfl (by simp) fun _ => ⟨_, _, rfl⟩

theorem rdStat : Statement .rdStat := of_read _ rfl rfl (by simp) fun _ => ⟨_, rfl⟩

theorem wrScy (v : Byte) : Statement (.wrScy v) :=
  of_write _ rfl rfl (by simp) fun _ => ⟨_, _, rfl⟩

theorem rdScy : Statement .rdScy := of_read _ rfl rfl (by simp) fun _ => ⟨_, rfl⟩

theorem wrScx (v : Byte) : Statement (.wrScx v) :=
  of_write _ rfl rfl (by simp) fun _ => ⟨_, _, rfl⟩

theorem rdScx : Statement .rdScx := of_read _ rfl rfl (by simp) fun _ => ⟨_, rfl⟩

theorem wrLy (v : Byte) : Statement (.wrLy v) :=
  of_write _ rfl rfl (by simp) fun _ => ⟨_, _, rfl⟩

theorem rdLy : Statement .rdLy := of_read _ rfl rfl (by simp) fun _ => ⟨_, rfl⟩

theorem wrLyc (v : Byte) : Statement (.wrLyc v) :=
  of_write _ rfl rfl (by simp) fun _ => ⟨_, _, rfl⟩

theorem rdLyc : Statement .rdLyc := of_read _ rfl rfl (by simp) fun _ => ⟨_, rfl⟩

theorem wrBgp (v : Byte) : Statement (.wrBgp v) :=
  of_write _ rfl rfl (by simp) fun _ => ⟨_, _, rfl⟩

theorem rdBgp : Statement .rdBgp := of_read _ rfl rfl (by simp) fun _ => ⟨_, rfl⟩

theorem wrObp0 (v : Byte) : Statement (.wrObp0 v) :=
  of_write _ rfl rfl (by simp) fun _ => ⟨_, _, rfl⟩

theorem rdObp0 : Statement .rdObp0 := of_read _ rfl rfl (by simp) fun _ => ⟨_, rfl⟩

theorem wrObp1 (v : Byte) : Statement (.wrObp1 v) :=
  of_write _ rfl rfl (by simp) fun _ => ⟨_, _, rfl⟩

theorem rdObp1 : Statement .rdObp1 := of_read _ rfl rfl (by simp) fun _ => ⟨_, rfl⟩

theorem wrWy (v : Byte) : Statement (.wrWy v) :=
  of_write _ rfl rfl (by simp) fun _ => ⟨_, _, rfl⟩

theorem rdWy : Statement .rdWy := of_read _ rfl rfl (by simp) fun _ => ⟨_, rfl⟩

theorem wrWx (v : Byte) : Statement (.wrWx v) :=
  of_write _ rfl rfl (by simp) fun _ => ⟨_, _, rfl⟩

theorem rdWx : Statement .rdWx := of_read _ rfl rfl (by simp) fun _ => ⟨_, rfl⟩

theorem wrVbk (v : Byte) : Statement (.wrVbk v) :=
  of_write _ rfl rfl (by simp) fun _ => ⟨_, _, rfl⟩

theorem rdVbk : Statement .rdVbk := of_read _ rfl rfl (by simp) fun _ => ⟨_, rfl⟩

theorem wrHdma1 (v : Byte) : Statement (.wrHdma1 v) :=
  of_write _ rfl rfl (by simp) fun _ => ⟨_, _, rfl⟩

theorem rdHdma1 : Statement .rdHdma1 := of_read _ rfl rfl (by simp) fun _ => ⟨_, rfl⟩

theorem wrHdma2 (v : Byte) : Statement (.wrHdma2 v) :=
  of_write _ rfl rfl (by simp) fun _ => ⟨_, _, rfl⟩

theorem rdHdma2 : Statement .rdHdma2 := of_read _ rfl rfl (by simp) fun _ => ⟨_, rfl⟩

theorem wrHdma3 (v : Byte) : Statement (.wrHdma3 v) :=
  of_write _ rfl rfl (by simp) fun _ => ⟨_, _, rfl⟩

theorem rdHdma3 : Statement .rdHdma3 := of_read _ rfl rfl (by simp) fun _ => ⟨_, rfl⟩

theorem wrHdma4 (v : Byte) : Statement (.wrHdma4 v) :=
  of_write _ rfl rfl (by simp) fun _ => ⟨_, _, rfl⟩

theorem rdHdma4 : Statement .rdHdma4 := of_read _ rfl rfl (by simp) fun _ => ⟨_, rfl⟩

theorem wrHdma5 (v : Byte) : Statement (.wrHdma5 v) :=
  of_write _ rfl rfl (by simp) fun _ => ⟨_, _, rfl⟩

theorem rdHdma5 : Statement .rdHdma5 := of_read _ rfl rfl (by simp) fun _ => ⟨_, rfl⟩

theorem wrBcps (v : Byte) : Statement (.wrBcps v) :=
  of_write _ rfl rfl (by simp) fun _ => ⟨_, _, rfl⟩

theorem rdBcps : Statement .rdBcps := of_read _ rfl rfl (by simp) fun _ => ⟨_, rfl⟩

theorem wrBcpd (v : Byte) : Statement (.wrBcpd v) :=
  of_write _ rfl rfl (by simp) fun _ => ⟨_, _, rfl⟩

theorem rdBcpd : Statement .rdBcpd := of_read _ rfl rfl (by simp) fun _ => ⟨_, rfl⟩

theorem wrOcps (v : Byte) : Statement (.wrOcps v) :=
  of_write _ rfl rfl (by simp) fun _ => ⟨_, _, rfl⟩

theorem rdOcps : Statement .rdOcps := of_read _ rfl rfl (by simp) fun _ => ⟨_, rfl⟩

theorem wrOcpd (v : Byte) : Statement (.wrOcpd v) :=
  of_write _ rfl rfl (by simp) fun _ => ⟨_, _, rfl⟩

theorem rdOcpd : Statement .rdOcpd := of_read _ rfl rfl (by simp) fun _ => ⟨_, rfl⟩

theorem wrVram (off : VramOffset) (v : Byte) : Statement (.wrVram off v) :=
  of_write _ rfl rfl (by simp) fun _ => ⟨_, _, rfl⟩

theorem rdVram (off : VramOffset) : Statement (.rdVram off) := of_read _ rfl rfl (by simp) fun _ => ⟨_, rfl⟩

theorem wrOam (i : Fin 160) (v : Byte) : Statement (.wrOam i v) :=
  of_write _ rfl rfl (by simp) fun _ => ⟨_, _, rfl⟩

theorem rdOam (i : Fin 160) : Statement (.rdOam i) := of_read _ rfl rfl (by simp) fun _ => ⟨_, rfl⟩

theorem wrUnmapped (a : BusAddr) (v : Byte) : Statement (.wrUnmapped a v) :=
  of_write _ rfl rfl (by simp) fun _ => ⟨_, _, rfl⟩

theorem rdUnmapped (a : BusAddr) : Statement (.rdUnmapped a) := of_read _ rfl rfl (by simp) fun _ => ⟨_, rfl⟩

end Sys2Proof.Laws.WordForm
end

