-- ==== Sys2Proof/Laws/Timing.lean ====
section
/-! SUPPORT. The laws of the sequencer: what `STEP` runs, what a tick does in each mode, what a tick and a sampling of the
display request can change. -/

namespace Sys2Proof.Machine

/-- A count from 0 up is the sampling and then the ticks (R160). -/
theorem exec_step_nat (n : Nat) (s : State) : exec (.step n) s = .next (runTicks n (sampleDisplay s)) := by
  simp [exec, execStep]

theorem ticks_one (s : State) : ticks 1 s = tick s := rfl

theorem ticks_add (a b : Nat) (s : State) : ticks (a + b) s = ticks b (ticks a s) := by
  induction a generalizing s with
  | zero => rw [Nat.zero_add]; rfl
  | succ a ih => rw [Nat.succ_add]; exact ih (tick s)

theorem ticks_succ (n : Nat) (s : State) : ticks (n + 1) s = tick (ticks n s) := ticks_add n 1 s

/-! ## One tick, by mode -/

theorem tick_oam (s : State) (h : s.mode = .oam) :
    tick s = if s.lineCycle + 1 = 80 then { s with lineCycle := s.lineCycle + 1, mode := .xfer }
      else { s with lineCycle := s.lineCycle + 1 } := by
  unfold tick
  simp only [h]
  rfl

theorem tick_xfer (s : State) (h : s.mode = .xfer) :
    tick s = if s.lineCycle + 1 = 252 then enterHblank { s with lineCycle := s.lineCycle + 1 }
      else { s with lineCycle := s.lineCycle + 1 } := by
  unfold tick
  simp only [h]

/-- The tick that enters HBlank: the mode, the row, the block, the request (R166). -/
theorem tick_enterHblank (s : State) (h : s.mode = .xfer) (hc : s.lineCycle = 251) :
    tick s = { hblankDma (renderLine s.ly { s with mode := .hblank, lineCycle := 252 }) with
      ifStat := s.ifStat || s.stat.hblankIe
      trace := s.trace ++ (if s.stat.hblankIe then [.raise .stat] else []) } := by
  rw [tick_xfer s h, if_pos (by rw [hc]), enterHblank_frame, hc]

theorem tick_hblank (s : State) (h : s.mode = .hblank) :
    tick s = if s.lineCycle + 1 = 456 then lineWrapVisible { s with lineCycle := s.lineCycle + 1 }
      else { s with lineCycle := s.lineCycle + 1 } := by
  unfold tick
  simp only [h]

theorem tick_vblank (s : State) (h : s.mode = .vblank) :
    tick s = if s.lineCycle + 1 = 456 then lineWrapVblank { s with lineCycle := s.lineCycle + 1 }
      else { s with lineCycle := s.lineCycle + 1 } := by
  unfold tick
  simp only [h]

/-! ## What a wrap does -/

theorem lineWrapVisible_eq (s : State) :
    lineWrapVisible s =
      if s.ly + 1#8 = 144#8 then enterVblank (lycCompare { s with lineCycle := 0, ly := s.ly + 1#8 })
      else enterOam (lycCompare { s with lineCycle := 0, ly := s.ly + 1#8 }) := by
  unfold lineWrapVisible
  dsimp only
  simp only [lycCompare_keeps]

theorem lineWrapVblank_eq (s : State) :
    lineWrapVblank s =
      if s.ly + 1#8 = 154#8 then enterOam (lycCompare { s with lineCycle := 0, ly := 0x00#8 })
      else lycCompare { s with lineCycle := 0, ly := s.ly + 1#8 } := rfl

/-! ## What a tick can change -/

/-- The registers and memories no tick and no sampling writes: all but the position, the coincidence bit, the colour-DMA
state, video memory, the picture and the output (R173). -/
structure SameSettings (s t : State) : Prop where
  eq : t = { s with
    ly := t.ly, stat := { s.stat with coinc := t.stat.coinc }, mode := t.mode, lineCycle := t.lineCycle
    displayOn := t.displayOn, hdma5 := t.hdma5, hdmaActive := t.hdmaActive, hdmaSrc := t.hdmaSrc, hdmaDst := t.hdmaDst
    vram := t.vram, tilePx := t.tilePx, lineColor := t.lineColor, lineRaw := t.lineRaw, linePrio := t.linePrio
    frame := t.frame, ifVblank := t.ifVblank, ifStat := t.ifStat, trace := t.trace, memReads := t.memReads }

theorem SameSettings.refl (s : State) : SameSettings s s := ⟨rfl⟩

theorem SameSettings.trans {s t u : State} (h : SameSettings s t) (k : SameSettings t u) : SameSettings s u := by
  constructor
  have h' := h.eq
  rw [k.eq]
  dsimp only
  rw [h']

theorem sameSettings_lycCompare (s : State) : SameSettings s (lycCompare s) := ⟨by rw [lycCompare_frame]⟩
theorem sameSettings_enterOam (s : State) : SameSettings s (enterOam s) := ⟨by rw [enterOam_frame]⟩
theorem sameSettings_enterVblank (s : State) : SameSettings s (enterVblank s) := ⟨by rw [enterVblank_frame]⟩
theorem sameSettings_enterHblank (s : State) : SameSettings s (enterHblank s) := ⟨by
  rw [enterHblank_frame, hblankDma_frame, renderLine_frame]⟩

theorem sameSettings_tick (s : State) : SameSettings s (tick s) := by
  have hpos : ∀ c l, SameSettings s { s with lineCycle := c, ly := l } := fun c l => ⟨rfl⟩
  have hcyc : SameSettings s { s with lineCycle := s.lineCycle + 1 } := ⟨rfl⟩
  cases hm : s.mode with
  | oam =>
    rw [tick_oam s hm]
    split
    · exact ⟨rfl⟩
    · exact hcyc
  | xfer =>
    rw [tick_xfer s hm]
    split
    · exact hcyc.trans (sameSettings_enterHblank _)
    · exact hcyc
  | hblank =>
    rw [tick_hblank s hm, lineWrapVisible_eq]
    split
    · split
      · exact ((hpos _ _).trans (sameSettings_lycCompare _)).trans (sameSettings_enterVblank _)
      · exact ((hpos _ _).trans (sameSettings_lycCompare _)).trans (sameSettings_enterOam _)
    · exact hcyc
  | vblank =>
    rw [tick_vblank s hm, lineWrapVblank_eq]
    split
    · split
      · exact ((hpos _ _).trans (sameSettings_lycCompare _)).trans (sameSettings_enterOam _)
      · exact (hpos _ _).trans (sameSettings_lycCompare _)
    · exact hcyc

theorem sameSettings_ticks (n : Nat) (s : State) : SameSettings s (ticks n s) := by
  induction n generalizing s with
  | zero => exact .refl s
  | succ n ih => exact (sameSettings_tick s).trans (ih _)

theorem sameSettings_sampleDisplay (s : State) : SameSettings s (sampleDisplay s) := by
  unfold sampleDisplay displayEnable displayDisable
  split
  · exact SameSettings.trans (t := { s with displayOn := true, lineCycle := 0 }) ⟨rfl⟩ (sameSettings_enterOam _)
  · split
    · have h : SameSettings s { s with displayOn := false, ly := 0x00#8 } := ⟨rfl⟩
      exact (h.trans (sameSettings_lycCompare _)).trans ⟨rfl⟩
    · exact .refl s

theorem sameSettings_runTicks (n : Nat) (s : State) : SameSettings s (runTicks n s) := by
  unfold runTicks
  split
  · exact sameSettings_ticks n s
  · exact .refl s

theorem tick_displayOn (s : State) : (tick s).displayOn = s.displayOn := by
  cases hm : s.mode with
  | oam => rw [tick_oam s hm]; split <;> rfl
  | xfer =>
    rw [tick_xfer s hm, enterHblank_frame]
    split
    · simp only [hblankDma_keeps, renderLine_keeps]
    · rfl
  | hblank =>
    rw [tick_hblank s hm, lineWrapVisible_eq]
    split
    · split
      · simp only [enterVblank_keeps, lycCompare_keeps]
      · simp only [enterOam_keeps, lycCompare_keeps]
    · rfl
  | vblank =>
    rw [tick_vblank s hm, lineWrapVblank_eq]
    split
    · split
      · simp only [enterOam_keeps, lycCompare_keeps]
      · simp only [lycCompare_keeps]
    · rfl

theorem ticks_displayOn (n : Nat) (s : State) : (ticks n s).displayOn = s.displayOn := by
  induction n generalizing s with
  | zero => rfl
  | succ n ih => exact (ih _).trans (tick_displayOn s)

/-! ## The sampling -/

/-- With the display on and the request set, or outside VBlank, the sampling changes nothing (R160, R162). -/
theorem sampleDisplay_on (s : State) (hd : s.displayOn = true) (h : s.lcdc.getLsbD 7 = true ∨ s.mode ≠ .vblank) :
    sampleDisplay s = s := by
  unfold sampleDisplay lcdEn
  rcases h with h | h
  · simp [h, hd]
  · have : (s.mode == Mode.vblank) = false := by cases hm : s.mode <;> simp_all
    simp [this, hd]

/-- One tick of a `STEP` with the display on. -/
theorem exec_step_one (s : State) (hd : s.displayOn = true) (h : s.lcdc.getLsbD 7 = true ∨ s.mode ≠ .vblank) :
    exec (.step 1) s = .next (tick s) := by
  have := exec_step_nat 1 s
  rw [sampleDisplay_on s hd h] at this
  simpa [runTicks, hd, ticks_one] using this

end Sys2Proof.Machine
end

