-- ==== Sys2Proof/Tests/Slice0.lean ====
section
/-! SUPPORT. Tests. Expected results come from spec/95_test_vectors.md (the vector is named in each docstring) or from the
layouts of spec/30_encoding.md; then, for every statement with hypotheses, a concrete case that meets them. -/

namespace Sys2Proof.Tests

open Sys2Proof Sys2Proof.Machine Sys2Proof.Spec

set_option Elab.async false

/-! ## Well-formedness: each check refuses an ill-formed term -/

/-- R122: a negative count has no word. -/
theorem test_wf_negative_step : (Instr.step (-1)).wf .default = false := by decide
/-- R122: the count has 30 bits. -/
theorem test_wf_step_too_long : (Instr.step (2 ^ 30)).wf .default = false := by decide
/-- R122: the largest count (E6). -/
theorem test_wf_longest_step : (Instr.step (2 ^ 30 - 1)).wf .default = true := by decide
/-- R86: `LCDC`'s address is not unmapped. -/
theorem test_wf_mapped_write : (Instr.wrUnmapped 0xFF40#16 0#8).wf .default = false := by decide +kernel
/-- R86: the first and the last byte of the windows are not unmapped. -/
theorem test_wf_mapped_read :
    (Instr.rdUnmapped 0x8000#16).wf .default = false ∧ (Instr.rdUnmapped 0x9FFF#16).wf .default = false ∧
    (Instr.rdUnmapped 0xFE00#16).wf .default = false ∧ (Instr.rdUnmapped 0xFE9F#16).wf .default = false := by
  decide +kernel
/-- G13, G14, R58: unmapped addresses, the interpreter's register among them. -/
theorem test_wf_unmapped :
    (Instr.rdUnmapped 0xFF46#16).wf .default = true ∧ (Instr.wrUnmapped 0xFEA0#16 0x12#8).wf .default = true ∧
    (Instr.rdUnmapped 0xFF0F#16).wf .default = true ∧ (Instr.rdUnmapped 0x7FFF#16).wf .default = true ∧
    (Instr.rdUnmapped 0xA000#16).wf .default = true := by
  decide +kernel
/-- R84, R85: a window past the end of the space, windows that overlap, two registers at one address, a register in a window. -/
theorem test_wf_maps :
    AddrMap.wf { vramBase := 0xE001#16 } = false ∧ AddrMap.wf { oamBase := 0x9FFF#16 } = false ∧
    AddrMap.wf { addrScx := 0xFF42#16 } = false ∧ AddrMap.wf { addrIf := 0x8000#16 } = false ∧
    AddrMap.wf { oamBase := 0xFF61#16 } = false := by
  decide +kernel
/-- Another layout: the tile banks in the upper part, the maps in the lower. -/
def otherMap : AddrMap := { tile1Off := 0x0800#13, tile0Off := 0x1000#13, map0Off := 0x0000#13, map1Off := 0x0400#13 }
/-- R84, R82 (a): the default layout and another, and a tile bank at an odd offset or past the end of the bank, a map past it. -/
theorem test_wf_layouts :
    AddrMap.default.layoutWf = true ∧ otherMap.layoutWf = true ∧ AddrMap.layoutWf { tile1Off := 0x0001#13 } = false ∧
    AddrMap.layoutWf { tile0Off := 0x1002#13 } = false ∧ AddrMap.layoutWf { map1Off := 0x1C01#13 } = false := by
  decide +kernel

/-! ## Decoding, word by word: `01 000000 addr data` is a write, `00 000000 addr 00000000` a read (R121) -/

/-- E7 and the format of `RESET` (R123). -/
theorem test_decode_reset : decode .default 0b11000000000000000000000000000000#32 = some .reset := by decide +kernel
/-- E4: `10` and the count 456 in 30 bits (R122). -/
theorem test_decode_step : decode .default 0b10000000000000000000000111001000#32 = some (.step 456) := by decide +kernel

theorem test_decode_lcdc :
    decode .default 0b01000000111111110100000010100101#32 = some (.wrLcdc 0xA5#8) ∧
    decode .default 0b00000000111111110100000000000000#32 = some .rdLcdc := by
  decide +kernel

theorem test_decode_stat :
    decode .default 0b01000000111111110100000110100101#32 = some (.wrStat 0xA5#8) ∧
    decode .default 0b00000000111111110100000100000000#32 = some .rdStat := by
  decide +kernel

theorem test_decode_scy :
    decode .default 0b01000000111111110100001010100101#32 = some (.wrScy 0xA5#8) ∧
    decode .default 0b00000000111111110100001000000000#32 = some .rdScy := by
  decide +kernel

theorem test_decode_scx :
    decode .default 0b01000000111111110100001110100101#32 = some (.wrScx 0xA5#8) ∧
    decode .default 0b00000000111111110100001100000000#32 = some .rdScx := by
  decide +kernel

theorem test_decode_ly :
    decode .default 0b01000000111111110100010010100101#32 = some (.wrLy 0xA5#8) ∧
    decode .default 0b00000000111111110100010000000000#32 = some .rdLy := by
  decide +kernel

theorem test_decode_lyc :
    decode .default 0b01000000111111110100010110100101#32 = some (.wrLyc 0xA5#8) ∧
    decode .default 0b00000000111111110100010100000000#32 = some .rdLyc := by
  decide +kernel

theorem test_decode_bgp :
    decode .default 0b01000000111111110100011110100101#32 = some (.wrBgp 0xA5#8) ∧
    decode .default 0b00000000111111110100011100000000#32 = some .rdBgp := by
  decide +kernel

theorem test_decode_obp0 :
    decode .default 0b01000000111111110100100010100101#32 = some (.wrObp0 0xA5#8) ∧
    decode .default 0b00000000111111110100100000000000#32 = some .rdObp0 := by
  decide +kernel

theorem test_decode_obp1 :
    decode .default 0b01000000111111110100100110100101#32 = some (.wrObp1 0xA5#8) ∧
    decode .default 0b00000000111111110100100100000000#32 = some .rdObp1 := by
  decide +kernel

theorem test_decode_wy :
    decode .default 0b01000000111111110100101010100101#32 = some (.wrWy 0xA5#8) ∧
    decode .default 0b00000000111111110100101000000000#32 = some .rdWy := by
  decide +kernel

theorem test_decode_wx :
    decode .default 0b01000000111111110100101110100101#32 = some (.wrWx 0xA5#8) ∧
    decode .default 0b00000000111111110100101100000000#32 = some .rdWx := by
  decide +kernel

theorem test_decode_vbk :
    decode .default 0b01000000111111110100111110100101#32 = some (.wrVbk 0xA5#8) ∧
    decode .default 0b00000000111111110100111100000000#32 = some .rdVbk := by
  decide +kernel

theorem test_decode_hdma1 :
    decode .default 0b01000000111111110101000110100101#32 = some (.wrHdma1 0xA5#8) ∧
    decode .default 0b00000000111111110101000100000000#32 = some .rdHdma1 := by
  decide +kernel

theorem test_decode_hdma2 :
    decode .default 0b01000000111111110101001010100101#32 = some (.wrHdma2 0xA5#8) ∧
    decode .default 0b00000000111111110101001000000000#32 = some .rdHdma2 := by
  decide +kernel

theorem test_decode_hdma3 :
    decode .default 0b01000000111111110101001110100101#32 = some (.wrHdma3 0xA5#8) ∧
    decode .default 0b00000000111111110101001100000000#32 = some .rdHdma3 := by
  decide +kernel

theorem test_decode_hdma4 :
    decode .default 0b01000000111111110101010010100101#32 = some (.wrHdma4 0xA5#8) ∧
    decode .default 0b00000000111111110101010000000000#32 = some .rdHdma4 := by
  decide +kernel

theorem test_decode_hdma5 :
    decode .default 0b01000000111111110101010110100101#32 = some (.wrHdma5 0xA5#8) ∧
    decode .default 0b00000000111111110101010100000000#32 = some .rdHdma5 := by
  decide +kernel

theorem test_decode_bcps :
    decode .default 0b01000000111111110110100010100101#32 = some (.wrBcps 0xA5#8) ∧
    decode .default 0b00000000111111110110100000000000#32 = some .rdBcps := by
  decide +kernel

theorem test_decode_bcpd :
    decode .default 0b01000000111111110110100110100101#32 = some (.wrBcpd 0xA5#8) ∧
    decode .default 0b00000000111111110110100100000000#32 = some .rdBcpd := by
  decide +kernel

theorem test_decode_ocps :
    decode .default 0b01000000111111110110101010100101#32 = some (.wrOcps 0xA5#8) ∧
    decode .default 0b00000000111111110110101000000000#32 = some .rdOcps := by
  decide +kernel

theorem test_decode_ocpd :
    decode .default 0b01000000111111110110101110100101#32 = some (.wrOcpd 0xA5#8) ∧
    decode .default 0b00000000111111110110101100000000#32 = some .rdOcpd := by
  decide +kernel

/-- The first and the last byte of the VRAM window (E8, R84). -/
theorem test_decode_vram :
    decode .default 0b01000000100000000000000000000000#32 = some (.wrVram 0x0000#13 0x00#8) ∧
    decode .default 0b00000000100111111111111100000000#32 = some (.rdVram 0x1FFF#13) := by
  decide +kernel

/-- The first and the last byte of the OAM window (E9, R84). -/
theorem test_decode_oam :
    decode .default 0b01000000111111101001111111111111#32 = some (.wrOam 159 0xFF#8) ∧
    decode .default 0b00000000111111100000000000000000#32 = some (.rdOam 0) := by
  decide +kernel

/-- G13: 0xFF46 belongs to nothing. -/
theorem test_decode_unmapped :
    decode .default 0b01000000111111110100011000010010#32 = some (.wrUnmapped 0xFF46#16 0x12#8) ∧
    decode .default 0b00000000111111110100011000000000#32 = some (.rdUnmapped 0xFF46#16) := by
  decide +kernel

/-- E10, E11, E12 and the zero bits of a write: refused (R140). -/
theorem test_decode_reserved :
    decode .default 0x01FF4400#32 = none ∧ decode .default 0x00FF4401#32 = none ∧ decode .default 0xC0000001#32 = none ∧
    decode .default 0x60FF4400#32 = none := by
  decide +kernel

/-- The host's numbering: a 32-bit row is its word, and a shorter one has zeros above. -/
theorem test_decodeTableWord :
    decodeTableWord 32 0x40FF4091 = some (.wrLcdc 0x91#8) ∧ decodeTableWord 24 0xFF4400 = some .rdLy ∧
    decodeTableWord 32 0x01FF4400 = none := by
  decide +kernel

/-! ## States the tests start from -/

/-- The reset state of the monochrome variant. -/
def mono : State := { State.reset with cfg := { Params.default with colorMode := false } }

/-- The state after the operation, where it answers one. -/
def after (s : State) (i : Instr) : Option State := match exec i s with
  | .next t => some t
  | .fault _ => none
  | .refused _ => none

/-- The state after a set-up, none of whose operations stops. -/
def setup (s : State) : List Instr → Option State
  | [] => some s
  | i :: rest => match after s i with
    | some t => setup t rest
    | none => none

/-- The operation on the state after a set-up. -/
def run (s : State) (l : List Instr) (i : Instr) : Option State := match setup s l with
  | some t => after t i
  | none => none

/-- What the operation answers on the bus after a set-up. -/
def answers (s : State) (l : List Instr) (i : Instr) : Option (Option Byte) := (run s l i).map (·.answer)

/-- The answer's bits selected by the mask (the others are free). -/
def answersMasked (s : State) (l : List Instr) (i : Instr) (mask : Byte) : Option (Option Byte) :=
  (run s l i).map fun t => t.answer.map (· &&& mask)

/-- A pixel of the frame buffer after the operation. -/
def pixel (s : State) (l : List Instr) (i : Instr) (y : Fin 144) (x : Byte) : Option Color :=
  (run s l i).map fun t => framePixel t y x

/-! ## Plain registers (Z1, G1 to G8) -/

/-- Z1, Z2, Z6 from a state with registers, position and memory set. -/
theorem test_reset :
    (after { mono with
      lcdc := 0x91#8, stat := ⟨true, true, true, true, false⟩, ly := 7#8, mode := .xfer, lineCycle := 99, displayOn := true
      vram := [(5, 1#8)], ifStat := true } .reset).map
      (fun t => (t.lcdc, t.stat, t.ly, t.mode, t.lineCycle, t.displayOn)) =
    some (0#8, ⟨false, false, false, false, true⟩, 0#8, .hblank, 0, false) := by
  decide +kernel
/-- Z3. -/
theorem test_reset_memory : answers { mono with vram := [(5, 1#8)] } [.reset] (.rdVram 5#13) = some (some 0x00#8) := by
  decide +kernel
/-- G2. -/
theorem test_wr_lcdc : (after mono (.wrLcdc 0xE3#8)).map (·.lcdc) = some 0xE3#8 := by decide +kernel
/-- G1. -/
theorem test_rd_lcdc : answers mono [] .rdLcdc = some (some 0x00#8) := by decide +kernel
/-- X11: bits 2:0 are not written. -/
theorem test_wr_stat :
    (after mono (.wrStat 0x0F#8)).map (·.stat) = some ⟨true, false, false, false, true⟩ := by decide +kernel
/-- X10. -/
theorem test_rd_stat : answersMasked mono [.wrStat 0xFF#8] .rdStat 0x7F#8 = some (some 0x7C#8) := by
  simp [answersMasked, run, setup, after, exec, execWrStat, execRdStat, setStatEnables, answerDraw, statByte, modeCode]
  generalize Config.unspec _ = u
  generalize u[7] = b
  cases b <;> decide
/-- G3. -/
theorem test_wr_scy : (after mono (.wrScy 0xFF#8)).map (·.scy) = some 0xFF#8 := by decide +kernel
theorem test_rd_scy : answers { mono with scy := 0xFF#8 } [] .rdScy = some (some 0xFF#8) := by decide +kernel
theorem test_wr_scx : (after mono (.wrScx 0x07#8)).map (·.scx) = some 0x07#8 := by decide +kernel
theorem test_rd_scx : answers { mono with scx := 0x07#8 } [] .rdScx = some (some 0x07#8) := by decide +kernel
/-- X18: the value is ignored, the position stays, the coincidence bit is set again. -/
theorem test_wr_ly :
    (after { mono with
      ly := 10#8, stat := ⟨false, false, false, false, false⟩, mode := .xfer, lineCycle := 100, displayOn := true }
      (.wrLy 0x55#8)).map (fun t => (t.ly, t.stat.coinc, t.mode, t.lineCycle)) = some (0#8, true, .xfer, 100) := by
  decide +kernel
/-- G4. -/
theorem test_rd_ly : answers mono [] .rdLy = some (some 0x00#8) := by decide +kernel
/-- X14: the bit goes 1, 0, 1 with the enable set: one request. -/
theorem test_wr_lyc :
    (run mono [.wrStat 0x40#8, .wrLyc 1#8] (.wrLyc 0#8)).map (fun t => (t.ifStat, t.trace)) =
      some (true, [.raise .stat]) := by
  decide +kernel
/-- X15: the bit is already 1. -/
theorem test_wr_lyc_no_edge : (run mono [.wrStat 0x40#8] (.wrLyc 0#8)).map (·.ifStat) = some false := by decide +kernel
/-- G5. -/
theorem test_rd_lyc : answers mono [.wrLyc 0x9A#8] .rdLyc = some (some 0x9A#8) := by decide +kernel
/-- G6. -/
theorem test_wr_bgp : (after mono (.wrBgp 0x1B#8)).map (·.bgShade.toList) = some [3#2, 2#2, 1#2, 0#2] := by decide +kernel
theorem test_rd_bgp : answers mono [.wrBgp 0x1B#8] .rdBgp = some (some 0x1B#8) := by decide +kernel
/-- L3. -/
theorem test_wr_obp0 : (after mono (.wrObp0 0x30#8)).map (·.objShade0.toList) = some [0#2, 0#2, 3#2, 0#2] := by
  decide +kernel
/-- G7. -/
theorem test_rd_obp0 : answers mono [.wrObp0 0x30#8, .wrObp1 0xE4#8] .rdObp0 = some (some 0x30#8) := by decide +kernel
/-- L1. -/
theorem test_wr_obp1 : (after mono (.wrObp1 0xE4#8)).map (·.objShade1.toList) = some [0#2, 1#2, 2#2, 3#2] := by
  decide +kernel
theorem test_rd_obp1 : answers mono [.wrObp0 0x30#8, .wrObp1 0xE4#8] .rdObp1 = some (some 0xE4#8) := by decide +kernel
/-- G8. -/
theorem test_wr_wy : (after mono (.wrWy 0x90#8)).map (·.wy) = some 0x90#8 := by decide +kernel
theorem test_rd_wy : answers { mono with wy := 0x90#8 } [] .rdWy = some (some 0x90#8) := by decide +kernel
theorem test_wr_wx : (after mono (.wrWx 0xA7#8)).map (·.wx) = some 0xA7#8 := by decide +kernel
theorem test_rd_wx : answers { mono with wx := 0xA7#8 } [] .rdWx = some (some 0xA7#8) := by decide +kernel

/-! ## The colour variant's registers (G9 to G15, L5 to L10, M1 to M16) -/

/-- G10. -/
theorem test_wr_vbk : (after .reset (.wrVbk 0xFF#8)).map (·.vbk) = some 1#1 := by decide +kernel
/-- G9: the monochrome variant has no `VBK`. -/
theorem test_vbk_mono : (after mono (.wrVbk 1#8)).map (·.vbk) = some 0#1 ∧ answers mono [] .rdVbk = some none := by
  decide +kernel
/-- G10: bit 0 of the answer. -/
theorem test_rd_vbk : answersMasked .reset [.wrVbk 0xFF#8] .rdVbk 0x01#8 = some (some 0x01#8) := by
  simp [answersMasked, run, setup, after, exec, execWrVbk, execRdVbk, colorWrite, colorRead, answerDraw, State.reset,
    Params.default]
  generalize Config.unspec _ = u
  revert u; decide +kernel
/-- G12: all 8 bits read back. -/
theorem test_wr_hdma1 : (after .reset (.wrHdma1 0xC1#8)).map (·.hdma1) = some 0xC1#8 := by decide +kernel
theorem test_rd_hdma1 : answers .reset [.wrHdma1 0xC1#8] .rdHdma1 = some (some 0xC1#8) := by decide +kernel
theorem test_wr_hdma2 : (after .reset (.wrHdma2 0x2F#8)).map (·.hdma2) = some 0x2F#8 := by decide +kernel
theorem test_rd_hdma2 : answers .reset [.wrHdma2 0x2F#8] .rdHdma2 = some (some 0x2F#8) := by decide +kernel
/-- M1: the registers keep the bits the addresses drop. -/
theorem test_wr_hdma3 : (after .reset (.wrHdma3 0xE3#8)).map (·.hdma3) = some 0xE3#8 := by decide +kernel
theorem test_rd_hdma3 : answers .reset [.wrHdma3 0xE3#8] .rdHdma3 = some (some 0xE3#8) := by decide +kernel
theorem test_wr_hdma4 : (after .reset (.wrHdma4 0x47#8)).map (·.hdma4) = some 0x47#8 := by decide +kernel
theorem test_rd_hdma4 : answers .reset [.wrHdma4 0x47#8] .rdHdma4 = some (some 0x47#8) := by decide +kernel
/-- M2: one block to bank 1, offset 0x0010; the oracle's bytes at 0x1230 and 0x123F are declared. -/
theorem test_wr_hdma5 :
    (run { State.reset with extMem := [(0x1230, 0x42#8), (0x123F, 0x51#8)] }
      [.wrVbk 1#8, .wrHdma1 0x12#8, .wrHdma2 0x30#8, .wrHdma3 0x00#8, .wrHdma4 0x10#8] (.wrHdma5 0x00#8)).map
      (fun t => (t.hdma5, t.memReads)) = some (0xFF#8, 16) := by
  decide +kernel
/-- M11: five blocks remain, the write cancels. -/
theorem test_wr_hdma5_cancel :
    (after { State.reset with hdma5 := 0x04#8, hdmaActive := true } (.wrHdma5 0x00#8)).map
      (fun t => (t.hdma5, t.hdmaActive, t.memReads)) = some (0x84#8, false, 0) := by
  decide +kernel
/-- G11. -/
theorem test_rd_hdma5 : answers .reset [] .rdHdma5 = some (some 0xFF#8) := by decide +kernel
/-- L6: the index register keeps bit 7 and bits 5:0. -/
theorem test_wr_ocps :
    (after .reset (.wrOcps 0xCA#8)).map (fun t => (t.objPal.autoInc, t.objPal.index)) = some (true, 10#6) := by
  decide +kernel
/-- L10. -/
theorem test_rd_bcps : answersMasked .reset [.wrBcps 0xFF#8] .rdBcps 0xBF#8 = some (some 0xBF#8) := by
  simp [answersMasked, run, setup, after, exec, execWrBcps, execRdBcps, colorWrite, colorRead, answerDraw, writeIndex,
    indexByte, State.reset, Params.default]
  generalize Config.unspec _ = u
  generalize u[6] = b
  cases b <;> decide
theorem test_wr_bcps :
    (after .reset (.wrBcps 0x02#8)).map (fun t => (t.bgPal.autoInc, t.bgPal.index)) = some (false, 2#6) := by
  decide +kernel
theorem test_rd_ocps : answersMasked .reset [.wrOcps 0x8A#8] .rdOcps 0xBF#8 = some (some 0x8A#8) := by
  simp [answersMasked, run, setup, after, exec, execWrOcps, execRdOcps, colorWrite, colorRead, answerDraw, writeIndex,
    indexByte, State.reset, Params.default]
  generalize Config.unspec _ = u
  generalize u[6] = b
  cases b <;> decide
/-- L8: the second byte at index 63: bit 7 dropped, the index wraps to 0. -/
theorem test_wr_bcpd :
    (run .reset [.wrBcps 0xBE#8, .wrBcpd 0x34#8] (.wrBcpd 0x92#8)).map
      (fun t => (at32 t.bgPal.raw 31#5, at32 t.bgPal.rgb 31#5, t.bgPal.index)) = some (0x1234#15, 0xA08820#24, 0#6) := by
  decide +kernel
/-- L7: no auto-increment. -/
theorem test_rd_bcpd : answers .reset [.wrBcps 0x02#8, .wrBcpd 0x11#8, .wrBcpd 0x22#8] .rdBcpd = some (some 0x22#8) := by
  decide +kernel
/-- L6. -/
theorem test_wr_ocpd :
    (run .reset [.wrOcps 0x8A#8, .wrOcpd 0xE0#8] (.wrOcpd 0x03#8)).map
      (fun t => (at32 t.objPal.raw 5#5, at32 t.objPal.rgb 5#5, t.objPal.index)) = some (0x03E0#15, 0x00F800#24, 12#6) := by
  decide +kernel
theorem test_rd_ocpd : answers .reset [.wrOcps 0x8A#8, .wrOcpd 0xE0#8, .wrOcps 0x0A#8] .rdOcpd = some (some 0xE0#8) := by
  decide +kernel

/-! ## Memories (D6 to D12, S5, S6) and unmapped addresses (G13, G14) -/

/-- D8: the byte lies in both tile windows. -/
theorem test_wr_vram :
    (after mono (.wrVram 0x0800#13 0xFF#8)).map
      (fun t => ((tileRow t 0#1 1#1 128#8 0#3).toList, (tileRow t 0#1 0#1 0#8 0#3).toList)) =
      some (List.replicate 8 1#2, List.replicate 8 1#2) := by
  decide +kernel
/-- D8 moved (R84 makes the places parameters): with the banks at 0x0800 and 0x1000 the shared part begins at 0x1000, and a
byte below 0x0800 is in no tile window. -/
theorem test_wr_vram_other_layout :
    (after { mono with cfg := { mono.cfg with map := otherMap } } (.wrVram 0x1000#13 0xFF#8)).map
      (fun t => ((tileRow t 0#1 1#1 128#8 0#3).toList, (tileRow t 0#1 0#1 0#8 0#3).toList)) =
      some (List.replicate 8 1#2, List.replicate 8 1#2) ∧
    (after { mono with cfg := { mono.cfg with map := otherMap } } (.wrVram 0x07FF#13 0xFF#8)).map (·.tilePx) = some [] := by
  decide +kernel
/-- D12: bank 1, and bank 0 is untouched. -/
theorem test_wr_vram_bank :
    (run .reset [.wrVbk 1#8] (.wrVram 0x0010#13 0xC0#8)).map
      (fun t => (vramRead t 1#1 0x0010#13, vramRead t 0#1 0x0010#13, (tileRow t 1#1 1#1 1#8 0#3).toList)) =
      some (0xC0#8, 0x00#8, [1#2, 1#2, 0#2, 0#2, 0#2, 0#2, 0#2, 0#2]) := by
  decide +kernel
/-- D10. -/
theorem test_rd_vram : answers mono [.wrVram 0x1800#13 0x01#8] (.rdVram 0x1800#13) = some (some 0x01#8) := by decide +kernel
/-- S3, with the descriptor as the write leaves it. -/
theorem test_wr_oam :
    (run mono [.wrLcdc 0x04#8, .wrOam 0 0xFF#8, .wrOam 1 0xFF#8] (.wrOam 2 0x7F#8)).map (fun t => spriteAt t 0) =
      some ⟨239, 247, 0x7E#8, 0x00#8⟩ := by
  decide +kernel
/-- S5: the raw byte. -/
theorem test_rd_oam : answers mono [.wrOam 2 0x01#8, .wrLcdc 0x04#8] (.rdOam 2) = some (some 0x01#8) := by decide +kernel
/-- G14. -/
theorem test_wr_unmapped : exec (.wrUnmapped 0xFEA0#16 0x12#8) mono = .next mono := rfl
/-- G13. -/
theorem test_rd_unmapped : answers mono [] (.rdUnmapped 0xFF46#16) = some none := by decide +kernel

/-! ## `STEP` -/

/-- B1: the checkerboard row scrolled by 3, and the columns that wrap round. -/
theorem test_step_scrolled_row :
    (run mono [.wrVram 0x0010#13 0xAA#8, .wrVram 0x1800#13 0x01#8, .wrBgp 0xE4#8, .wrScx 3#8, .wrLcdc 0x91#8]
      (.step 252)).map (fun t => ([0, 1, 2, 3, 4, 5, 253, 254, 255].map fun x => framePixel t 0 (BitVec.ofNat 8 x))) =
    some [0xFFFFFF#24, 0xAAAAAA#24, 0xFFFFFF#24, 0xAAAAAA#24, 0xFFFFFF#24, 0xFFFFFF#24, 0xAAAAAA#24, 0xFFFFFF#24,
      0xAAAAAA#24] := by
  decide +kernel

/-- Program A, lines 2 to 7 with `LYC = 1`: the line wrap raises the request (R170, R174). -/
theorem test_step_line_wrap :
    (run mono [.wrLyc 1#8, .wrStat 0x40#8, .wrLcdc 0x80#8] (.step 456)).map
      (fun t => (t.ly, t.mode, t.lineCycle, t.stat.coinc, t.ifStat, t.ifVblank)) =
    some (1#8, .oam, 0, true, true, false) := by
  decide +kernel

/-! ## The hypotheses of the statements can be met

One theorem for each statement with hypotheses, named after it; where a statement has several clauses, a case for each. -/

/-- A state one tick before HBlank of a scanline, at the given index. -/
def atEntry (cfg : Params) (ly : Byte) : State :=
  { State.reset with
    cfg := cfg, lcdc := 0x80#8, ly := ly, stat := ⟨true, false, false, false, ly == 0#8⟩
    mode := .xfer, lineCycle := 251, displayOn := true }

/-- A state with the display on at the given place. -/
def place (m : Mode) (cycle : Nat) (ly : Byte) : State :=
  { State.reset with lcdc := 0x80#8, ly := ly, mode := m, lineCycle := cycle, displayOn := true }

/-- The state of `atEntry` meets the invariant when the index is a visible scanline. -/
theorem atEntry_inv (cfg : Params) (ly : Byte) (h : ly.toNat ≤ 143) : Inv (atEntry cfg ly) where
  position := ⟨by show ly.toNat ≤ 153; omega, by show 251 ≤ 455; omega, nofun, nofun,
    fun _ => ⟨by show 80 ≤ 251; omega, by show 251 ≤ 251; omega, h⟩, nofun⟩
  coinc := rfl
  tiles := fun b k t r => by
    show blankRow = decodeRow 0#8 0#8
    decide
  shades := by
    have h : Vector.replicate 4 0#2 = shadeTable 0#8 := by decide
    exact ⟨h, h, h⟩
  bgPal := by unfold PalPort.Coherent; exact (by decide : ∀ e : BitVec 5, at32 PalPort.reset.rgb e = scale15 (at32 PalPort.reset.raw e))
  objPal := by unfold PalPort.Coherent; exact (by decide : ∀ e : BitVec 5, at32 PalPort.reset.rgb e = scale15 (at32 PalPort.reset.raw e))
  sprites := fun n => by
    show (Vector.replicate 40 Sprite.reset)[n.val] = decodeSprite 0#8 0#8 0#8 0#8 (BitVec.getLsbD 0x80#8 2)
    rw [Vector.getElem_replicate]
    decide
  dmaFlag := by show BitVec.getLsbD 0xFF#8 7 = true; decide
  stores := reset_stores_wf

theorem witness_DecodeOfEncodeIsTheOperation :
    AddrMap.default.wf = true ∧ (Instr.step 0).wf .default = true ∧ (Instr.step 0x3FFFFFFF).wf .default = true ∧
    (Instr.wrVram 0x1FFF#13 0xFF#8).wf .default = true ∧ (Instr.rdOam 159).wf .default = true ∧
    (Instr.wrUnmapped 0xFF46#16 0x12#8).wf .default = true := by
  decide +kernel

theorem witness_EncodeOfDecodeIsTheWord :
    decode .default 0xBFFFFFFF#32 = some (.step 0x3FFFFFFF) ∧ decode .default 0x409FFFFF#32 = some (.wrVram 0x1FFF#13 0xFF#8) := by
  decide +kernel

theorem witness_ReservedBitsAreRefused :
    ({ State.reset with pending := [0xC0000001#32] } : State).cfg.map = AddrMap.default ∧
    decode .default 0xC0000001#32 = none ∧ decode .default 0x41FF4000#32 = none ∧ decode .default 0x00FF4001#32 = none ∧
    decode .default 0x01FF4000#32 = none := by
  refine ⟨rfl, ?_⟩
  decide +kernel

/-- Both ends of the windows, the first and the last register, and addresses on both sides of a window. -/
theorem witness_BusAddressSelectsItsTarget :
    AddrMap.default.wf = true ∧ AddrMap.default.answers 0x7FFF#16 = false ∧ AddrMap.default.answers 0xA000#16 = false ∧
    AddrMap.default.answers 0xFEA0#16 = false ∧ AddrMap.default.answers 0xFF0F#16 = false := by
  decide +kernel

theorem witness_StepRunsTheDecodedOperation :
    decode ({ State.reset with pending := [0x40FF4091#32] } : State).cfg.map 0x40FF4091#32 = some (.wrLcdc 0x91#8) := by
  decide +kernel

/-- In range and at its edge, out of range, with nothing issued, and with a legal word. -/
theorem witness_NoOperationInRangeFaults :
    (∀ n, Instr.step 0 = .step n → 0 ≤ n) ∧ (∀ n, Instr.wrLcdc 0#8 = .step n → 0 ≤ n) ∧
    exec (.step (-1)) State.reset = .fault (.contractViolation .negativeCycleCount) ∧
    (∀ w rest, State.reset.pending = w :: rest → decode State.reset.cfg.map w ≠ none) ∧
    ∀ w rest, ({ State.reset with pending := [0x40FF4091#32] } : State).pending = w :: rest →
      decode State.reset.cfg.map w ≠ none := by
  refine ⟨fun n h => ?_, nofun, rfl, nofun, fun w rest h => ?_⟩
  · cases h; decide
  · cases h
    decide +kernel

/-- The size bit kept and the size bit changed. -/
theorem witness_WrLcdcRefreshesSpritesOnSizeChange :
    BitVec.getLsbD 0xFB#8 2 = State.reset.lcdc.getLsbD 2 ∧ BitVec.getLsbD 0x04#8 2 ≠ State.reset.lcdc.getLsbD 2 := by
  decide +kernel

theorem witness_ColourRegisterWrites : State.reset.cfg.colorMode = true := rfl
theorem witness_ColourRegisterReads : State.reset.cfg.colorMode = true := rfl
theorem witness_UnmappedAndAbsentAccessesChangeNothing : mono.cfg.colorMode = false := rfl

/-- Both halves, and both settings of auto-increment; entries 0 and 31 addressed, and one that is not. -/
theorem witness_PaletteDataWritesOneEntry :
    State.reset.cfg.colorMode = true ∧
    (∀ i : BitVec 6, i = 0#6 ∨ i = 63#6 → (i.getLsbD 0 = (i == 63#6))) ∧
    (0#3 = (0#6).extractLsb' 3 3 ∧ 0#2 = (0#6).extractLsb' 1 2) ∧
    (7#3 = (63#6).extractLsb' 3 3 ∧ 3#2 = (63#6).extractLsb' 1 2) ∧ 0#3 ≠ (63#6).extractLsb' 3 3 := by
  decide +kernel

theorem witness_PaletteDataReads :
    State.reset.cfg.colorMode = true ∧ State.reset.bgPal.index.getLsbD 0 = false ∧
    (writeIndex 0x3F#8 State.reset.bgPal).index.getLsbD 0 = true := by
  decide +kernel

theorem witness_PaletteRoundTrip : State.reset.cfg.colorMode = true ∧ (62#6).getLsbD 0 = false := by decide

/-- A byte of both tile windows, of each alone, and of the maps. -/
theorem witness_WrVramStoresAndDecodesTheTouchedRow :
    State.reset.cfg.map.layoutWf = true ∧
    (0x0800#13 = State.reset.cfg.map.tile1Off + BitVec.ofNat 13 (16 * (128#8).toNat + 2 * (0#3).toNat)) ∧
    (0x0800#13 = State.reset.cfg.map.tile0Off + BitVec.ofNat 13 (16 * (0#8).toNat + 2 * (0#3).toNat)) ∧
    (0x07FF#13 = State.reset.cfg.map.tile1Off + BitVec.ofNat 13 (16 * (127#8).toNat + 2 * (7#3).toNat) + 1#13) ∧
    (0x17FF#13 = State.reset.cfg.map.tile0Off + BitVec.ofNat 13 (16 * (255#8).toNat + 2 * (7#3).toNat) + 1#13) ∧
    (∀ (t : Byte) (r : BitVec 3),
      (0x1800#13).toNat ≠ State.reset.cfg.map.tile0Off.toNat + 16 * t.toNat + 2 * r.toNat) := by
  refine ⟨by decide, by decide, by decide, by decide, by decide, fun t r => ?_⟩
  have := t.isLt; have := r.isLt
  show 0x1800 ≠ 0x0800 + _ + _
  omega

theorem witness_TileLookupIsSignedInBankZero :
    TilesCoherent (atEntry .default 0#8) ∧ AddrMap.default.tile1Off = 0x0000#13 ∧ AddrMap.default.tile0Off = 0x0800#13 :=
  ⟨(atEntry_inv .default 0#8 (by decide)).tiles, rfl, rfl⟩

theorem witness_GeneralTransferCopiesAllBlocks :
    State.reset.cfg.colorMode = true ∧ State.reset.hdmaActive = false ∧ BitVec.getLsbD 0x00#8 7 = false ∧
    BitVec.getLsbD 0x7F#8 7 = false := by
  decide

theorem witness_LinkedTransferStartsWithoutCopying :
    State.reset.cfg.colorMode = true ∧ BitVec.getLsbD 0x80#8 7 = true ∧ BitVec.getLsbD 0xFF#8 7 = true := by
  decide

theorem witness_ClearBitCancelsTheLinkedTransfer :
    let s : State := { State.reset with hdma5 := 0x04#8, hdmaActive := true }
    s.cfg.colorMode = true ∧ s.hdmaActive = true ∧ BitVec.getLsbD 0x7F#8 7 = false := by
  decide

/-- The last block, and a block that is not the last. -/
theorem witness_HblankEntryCopiesOneBlock :
    let s : State := { atEntry .default 0#8 with hdma5 := 0x00#8, hdmaActive := true }
    let u : State := { atEntry .default 143#8 with hdma5 := 0x7F#8, hdmaActive := true }
    (s.cfg.colorMode = true ∧ s.hdmaActive = true ∧ AtHblankEntry s ∧ s.hdma5.toNat % 128 = 0) ∧
    (u.cfg.colorMode = true ∧ u.hdmaActive = true ∧ AtHblankEntry u ∧ u.hdma5.toNat % 128 ≠ 0) :=
  ⟨⟨rfl, rfl, ⟨rfl, rfl, rfl⟩, rfl⟩, ⟨rfl, rfl, ⟨rfl, rfl, rfl⟩, by decide⟩⟩

/-- Off; on and one tick early; in another mode. -/
theorem witness_OnlyHblankEntryCopiesOrComposites :
    ¬ AtHblankEntry State.reset ∧ ¬ AtHblankEntry (place .xfer 250 0#8) ∧ ¬ AtHblankEntry (place .hblank 455 143#8) :=
  ⟨fun h => (by cases h.1), fun h => absurd h.2.2 (by decide), fun h => (by cases h.2.1)⟩

/-- In both variants, on the first and the last visible scanline. -/
theorem witness_CompositedRowIsThePicture :
    (Inv (atEntry .default 0#8) ∧ AtHblankEntry (atEntry .default 0#8)) ∧
    (Inv (atEntry mono.cfg 143#8) ∧ AtHblankEntry (atEntry mono.cfg 143#8)) :=
  ⟨⟨atEntry_inv _ _ (by decide), rfl, rfl, rfl⟩, ⟨atEntry_inv _ _ (by decide), rfl, rfl, rfl⟩⟩

/-- A row of the frame that is the scanline's, and one that is not. -/
theorem witness_HblankEntryWritesOneRow :
    AtHblankEntry (atEntry .default 143#8) ∧ (143 : Fin 144).val = (atEntry .default 143#8).ly.toNat ∧
    (0 : Fin 144).val ≠ (atEntry .default 143#8).ly.toNat :=
  ⟨⟨rfl, rfl, rfl⟩, rfl, by decide⟩

theorem witness_DisabledLayersGiveABlankRow :
    let s := atEntry mono.cfg 143#8
    AtHblankEntry s ∧ s.lcdc.getLsbD 0 = false ∧ s.lcdc.getLsbD 5 = false ∧ s.lcdc.getLsbD 1 = false :=
  ⟨⟨rfl, rfl, rfl⟩, by decide, by decide, by decide⟩

/-- With height 17 every entry of the reset table covers scanline 0: entry 10 covers it and is left out. -/
theorem witness_SelectionIsTheFirstTenCovering :
    ((spriteAt .reset 10).y ≤ ((0x00#8).toNat : Int) ∧ ((0x00#8).toNat : Int) < (spriteAt .reset 10).y + 17) ∧
    (10 : Fin 40) ∉ selectSprites .reset 0x00#8 17 ∧ (9 : Fin 40) ∈ selectSprites .reset 0x00#8 17 := by
  decide +kernel

theorem witness_NegativeStepIsTheContractViolation : (-1 : Int) < 0 := by decide

theorem witness_StepWithDisplayOffDoesNothing :
    State.reset.displayOn = false ∧ State.reset.lcdc.getLsbD 7 = false := by decide

theorem witness_EnableResumesAtOamSearch :
    let s : State := { State.reset with lcdc := 0x80#8 }
    s.displayOn = false ∧ s.lcdc.getLsbD 7 = true := by
  decide

theorem witness_DisableIsHonouredInVblank :
    let s : State := { place .vblank 0 144#8 with lcdc := 0x00#8 }
    s.displayOn = true ∧ s.mode = .vblank ∧ s.lcdc.getLsbD 7 = false := by
  decide

/-- With the request set in VBlank, and with the request clear outside it. -/
theorem witness_TickFollowsTheTransitionTable :
    let s := place .vblank 455 153#8
    let u : State := { place .hblank 455 143#8 with lcdc := 0x00#8 }
    (s.displayOn = true ∧ (s.lcdc.getLsbD 7 = true ∨ s.mode ≠ .vblank)) ∧
    (u.displayOn = true ∧ (u.lcdc.getLsbD 7 = true ∨ u.mode ≠ .vblank)) := by
  decide

/-- The last interior tick of each mode. -/
theorem witness_InteriorTicksOnlyCount :
    (∀ s ∈ [place .oam 78 0#8, place .xfer 250 0#8, place .hblank 454 143#8, place .vblank 454 153#8],
      s.displayOn = true ∧ (s.lcdc.getLsbD 7 = true ∨ s.mode ≠ .vblank) ∧ boundaryTick s.mode s.lineCycle = false) := by
  simp only [List.forall_mem_cons, List.not_mem_nil, false_imp_iff, implies_true, and_true]
  decide

/-- The last tick of OAM-search; the first and the last but one of Pixel-transfer. -/
theorem witness_PixelTransferHasNoEffectOfItsOwn :
    ((place .oam 79 0#8).displayOn = true ∧ (place .oam 79 0#8).mode = .oam ∧ (place .oam 79 0#8).lineCycle = 79) ∧
    ((place .xfer 80 0#8).mode = .xfer ∧ (place .xfer 80 0#8).lineCycle ≠ 251) ∧
    ((place .xfer 250 143#8).mode = .xfer ∧ (place .xfer 250 143#8).lineCycle ≠ 251) := by
  decide

/-- The same tick of the scanlines before and after, one tick early, and the display off. -/
theorem witness_FrameAndVblankRequestOnlyAtVblankEntry :
    ∀ s ∈ [place .hblank 455 142#8, place .vblank 455 144#8, place .hblank 454 143#8, State.reset],
      ¬ (s.displayOn = true ∧ s.mode = .hblank ∧ s.lineCycle = 455 ∧ s.ly = 143#8) := by
  simp only [List.forall_mem_cons, List.not_mem_nil, false_imp_iff, implies_true, and_true]
  decide

theorem witness_VisibleLineWrapEntersOamSearch :
    ∀ l ∈ [0#8, 142#8], (place .hblank 455 l).displayOn = true ∧ (place .hblank 455 l).mode = .hblank ∧
      (place .hblank 455 l).lineCycle = 455 ∧ (place .hblank 455 l).ly + 1#8 ≠ 144#8 := by
  decide

theorem witness_VblankEntryRaisesAndPresents :
    (place .hblank 455 143#8).displayOn = true ∧ (place .hblank 455 143#8).mode = .hblank ∧
    (place .hblank 455 143#8).lineCycle = 455 ∧ (place .hblank 455 143#8).ly = 143#8 := by
  decide

/-- The first and the last but one scanline of vertical blank, and the last. -/
theorem witness_VblankLinesCountToTheFrameWrap :
    (∀ l ∈ [144#8, 152#8, 153#8], (place .vblank 455 l).displayOn = true ∧ (place .vblank 455 l).lcdc.getLsbD 7 = true ∧
      (place .vblank 455 l).mode = .vblank ∧ (place .vblank 455 l).lineCycle = 455) ∧
    (place .vblank 455 144#8).ly + 1#8 ≠ 154#8 ∧ (place .vblank 455 152#8).ly + 1#8 ≠ 154#8 ∧
    (place .vblank 455 153#8).ly + 1#8 = 154#8 := by
  decide

/-- With the transfer idle in the colour variant, and in the monochrome variant. -/
theorem witness_HblankEntryRaisesOnceIfEnabled :
    (AtHblankEntry (atEntry .default 0#8) ∧ (atEntry .default 0#8).hdmaActive = false) ∧
    (AtHblankEntry (atEntry mono.cfg 143#8) ∧ (atEntry mono.cfg 143#8).cfg.colorMode = false) :=
  ⟨⟨⟨rfl, rfl, rfl⟩, rfl⟩, ⟨⟨rfl, rfl, rfl⟩, rfl⟩⟩

theorem witness_SequencerPositionInClosedForm : FrameStart (place .oam 0 0#8) := ⟨rfl, rfl, rfl, rfl⟩

/-- `LYC` equal to the index and `LYC` not equal to it. -/
theorem witness_RequestsPerFrame :
    let s := place .oam 0 0#8
    let u : State := { place .oam 0 0#8 with lyc := 153#8, stat := ⟨true, true, true, true, false⟩ }
    (FrameStart s ∧ s.stat.coinc = (s.ly == s.lyc)) ∧ (FrameStart u ∧ u.stat.coinc = (u.ly == u.lyc)) :=
  ⟨⟨⟨rfl, rfl, rfl, rfl⟩, rfl⟩, ⟨⟨rfl, rfl, rfl, rfl⟩, rfl⟩⟩

/-- The first count ends with the request set; off; on outside VBlank with the request clear. -/
theorem witness_StepsAddUp :
    (place .oam 0 0#8).lcdc.getLsbD 7 = true ∧
    (exec (.step 5) State.reset = .next State.reset ∧ State.reset.displayOn = false) ∧
    (exec (.step 0) { place .oam 0 0#8 with lcdc := 0x00#8 } = .next { place .oam 0 0#8 with lcdc := 0x00#8 } ∧
      (place .oam 0 0#8).mode ≠ .vblank) :=
  ⟨by decide, ⟨rfl, rfl⟩, ⟨rfl, by decide⟩⟩

theorem witness_ReadsHaveNoSideEffects : isRead .rdStat = true ∧ isRead (.rdVram 0x1FFF#13) = true := by decide

theorem witness_OnlyStepMovesTheSequencerAndThePicture :
    isStep (.wrLy 0#8) = false ∧ (.wrLy 0#8 : Instr) ≠ .reset ∧ isStep (.wrLcdc 0#8) = false ∧
    ∀ v, (.wrLcdc 0#8 : Instr) ≠ .wrLy v := by
  refine ⟨rfl, nofun, rfl, nofun⟩

/-- An operation that may raise, and one that may not. -/
theorem witness_RequestsAreOnlyEverSet :
    (∃ t, exec (.wrLyc 0#8) State.reset = .next t) ∧ (∃ t, exec (.wrLcdc 0#8) State.reset = .next t) ∧
    mayRaise (.wrLcdc 0#8) = false :=
  ⟨⟨_, rfl⟩, ⟨_, rfl⟩, rfl⟩

theorem witness_ParametersNeverChange : step State.reset = .next State.reset := rfl

/-- The invariant and a step that writes. -/
theorem witness_EveryStepKeepsTheInvariant :
    Inv (atEntry .default 0#8) ∧ step (atEntry .default 0#8) = .next (atEntry .default 0#8) :=
  ⟨atEntry_inv _ _ (by decide), rfl⟩

end Sys2Proof.Tests
end

section
/-! PROOF. Pixel-transfer has no effect of its own (R165): its entry sets the mode, its interior ticks count. -/

namespace Sys2Proof.Machine

/-- The tick that enters Pixel-transfer: the mode and the count (R165). -/
theorem tick_enterXfer (s : State) (h : s.mode = .oam) (hc : s.lineCycle = 79) :
    tick s = { s with lineCycle := 80, mode := .xfer } := by
  rw [tick_oam s h, if_pos (by rw [hc]), hc]

/-- A tick of Pixel-transfer that does not enter HBlank: the count (R161). -/
theorem tick_xfer_interior (s : State) (h : s.mode = .xfer) (hc : s.lineCycle ≠ 251) :
    tick s = { s with lineCycle := s.lineCycle + 1 } := by
  rw [tick_xfer s h, if_neg (by omega)]

/-- Settles O45: outside VBlank a `STEP 1` is one tick, and that tick is the entry or an interior one. -/
theorem pixelTransferHasNoEffectOfItsOwn : Obligations.PixelTransferHasNoEffectOfItsOwn := by
  intro s hd
  refine ⟨fun hm hc => ?entry, fun hm hc => ?interior⟩
  case entry => rw [exec_step_one s hd (.inr (by simp [hm])), tick_enterXfer s hm hc]
  case interior => rw [exec_step_one s hd (.inr (by simp [hm])), tick_xfer_interior s hm hc]

end Sys2Proof.Machine
end

section
/-! PROOF. The writes of `LCDC`, of the scroll and window positions and of the monochrome palettes (R200, R204, R206, R212,
R214, R216, R218, R220): each stores its byte and recomputes what is derived from it. -/

namespace Sys2Proof.Machine

/-- `WR LCDC` with the size bit as it was: the byte is stored and the descriptors stand (R200). -/
theorem exec_wrLcdc_of_size_eq {v : Byte} {s : State} (h : v.getLsbD 2 = s.lcdc.getLsbD 2) :
    exec (.wrLcdc v) s = .next { s with lcdc := v } :=
  congrArg Host.Outcome.next (if_pos h)

/-- `WR LCDC` with the other size: the byte is stored and the descriptors are decoded under it (R200, R302). -/
theorem exec_wrLcdc_of_size_ne {v : Byte} {s : State} (h : v.getLsbD 2 ≠ s.lcdc.getLsbD 2) :
    exec (.wrLcdc v) s = .next (refreshSprites { s with lcdc := v }) :=
  congrArg Host.Outcome.next (if_neg h)

/-- Settles O8: the meaning of each of the four writes is that one field replaced. -/
theorem scrollAndWindowWritesStoreTheByte : Obligations.ScrollAndWindowWritesStoreTheByte :=
  fun _ _ => ⟨rfl, rfl, rfl, rfl⟩

/-- Settles O9, by whether the write keeps the size bit. -/
theorem wrLcdcRefreshesSpritesOnSizeChange : Obligations.WrLcdcRefreshesSpritesOnSizeChange := by
  intro s v
  by_cases hsize : v.getLsbD 2 = s.lcdc.getLsbD 2
  case pos => exact ⟨_, exec_wrLcdc_of_size_eq hsize, rfl, fun _ => rfl, fun hne => absurd hsize hne⟩
  case neg => exact ⟨_, exec_wrLcdc_of_size_ne hsize, rfl, fun heq => absurd heq hsize,
    fun _ => spriteAt_refreshSprites { s with lcdc := v }⟩

/-- Settles O15: each write puts the register's shade table beside it, and an entry of a shade table is the 2-bit field of
its register. -/
theorem monoPaletteWritesRecomputeTheirTable : Obligations.MonoPaletteWritesRecomputeTheirTable := by
  intro s v
  refine ⟨⟨_, rfl, rfl, ?bgp⟩, ⟨_, rfl, rfl, ?obp0⟩, ⟨_, rfl, rfl, ?obp1⟩⟩
  case bgp | obp0 | obp1 => exact at4_shadeTable v

end Sys2Proof.Machine
end

section
/-! PROOF. The channel scaling (R290) and the writes of the palette data ports (R236, R241, R286, R287). -/

namespace Sys2Proof.Machine

/-! ## The display colour -/

/-- One scaled channel as a number: a 5-bit value times 8 fits its byte (R290). -/
theorem scaledChannel_toNat (ch : BitVec 5) : (ch.zeroExtend 8 * 8#8).toNat = ch.toNat * 8 := by
  have hlt := ch.isLt
  simp only [BitVec.toNat_mul, BitVec.truncate_eq_setWidth, BitVec.toNat_setWidth, BitVec.toNat_ofNat]
  omega

/-- `Scale15` is the three channels times 8, put side by side (R290). -/
theorem scale15_eq_scaled (raw : Color15) : scale15 raw = Spec.scaled raw := by
  apply BitVec.eq_of_toNat_eq
  simp only [scale15, Spec.scaled, toNat_append_add, scaledChannel_toNat, BitVec.extractLsb'_toNat, BitVec.toNat_ofNat,
    Nat.shiftRight_eq_div_pow, Nat.reducePow]
  omega

/-- Settles O21, by the values of both sides: a scaled channel never carries into the next byte. -/
theorem scaleMultipliesEachChannelByEight : Obligations.ScaleMultipliesEachChannelByEight := scale15_eq_scaled

/-! ## A data port write -/

/-- A high byte written: the low byte stands, and the high 7 bits are those written (R286). -/
theorem mergeHalf_high (old : Color15) (v : Byte) :
    (mergeHalf true old v).extractLsb' 0 8 = old.extractLsb' 0 8 ∧
    (mergeHalf true old v).extractLsb' 8 7 = v.extractLsb' 0 7 := by
  refine ⟨?low, ?high⟩
  case low | high =>
    ext i hi
    interval_cases i <;> simp [mergeHalf]

/-- A low byte written: it is the low byte, and the high 7 bits stand (R286). -/
theorem mergeHalf_low (old : Color15) (v : Byte) :
    (mergeHalf false old v).extractLsb' 0 8 = v ∧
    (mergeHalf false old v).extractLsb' 8 7 = old.extractLsb' 8 7 := by
  refine ⟨?low, ?high⟩
  case low | high =>
    ext i hi
    interval_cases i <;> simp [mergeHalf]

/-- The entry of a palette and a colour is the addressed one when both are those of the address (R131, R285). -/
theorem entry_eq_palEntry_iff (p : BitVec 3) (i : RawIndex) (a : BitVec 6) :
    p ++ i = palEntry a ↔ p = a.extractLsb' 3 3 ∧ i = a.extractLsb' 1 2 := by
  have hi := i.isLt
  simp only [← BitVec.toNat_inj, palEntry, toNat_append_add, BitVec.extractLsb'_toNat, Nat.shiftRight_eq_div_pow]
  omega

/-- The index after a data port write (R286). -/
theorem palDataWrite_index (v : Byte) (p : PalPort) :
    (palDataWrite v p).index = if p.autoInc then BitVec.ofNat 6 ((p.index.toNat + 1) % 64) else p.index := by
  have hnext : p.index + 1#6 = BitVec.ofNat 6 ((p.index.toNat + 1) % 64) := by
    apply BitVec.eq_of_toNat_eq
    simp
  rw [← hnext]
  rfl

/-- What `PalDataWrite` does to a pair of registers and its palette memory (R286). -/
theorem palDataWrite_written (v : Byte) (p : PalPort) : Spec.PalWritten p (palDataWrite v p) v := by
  refine ⟨rfl, palDataWrite_index v p, fun pal i => ?_⟩
  rw [palDataWrite_raw, palDataWrite_rgb]
  simp only [entry_eq_palEntry_iff]
  split
  case isFalse => exact ⟨rfl, rfl⟩
  case isTrue haddr =>
    rw [(entry_eq_palEntry_iff pal i p.index).mpr haddr]
    refine ⟨?_, scale15_eq_scaled _⟩
    rw [palHalf]
    cases p.index.getLsbD 0
    case true => exact mergeHalf_high _ v
    case false => exact mergeHalf_low _ v

/-- `WR BCPD` in the colour variant is `PalDataWrite` on the background pair (R236). -/
theorem exec_wrBcpd_of_colorMode (v : Byte) {s : State} (h : s.cfg.colorMode = true) :
    exec (.wrBcpd v) s = .next { s with bgPal := palDataWrite v s.bgPal } :=
  congrArg Host.Outcome.next (if_pos h)

/-- `WR OCPD` in the colour variant is `PalDataWrite` on the sprite pair (R241). -/
theorem exec_wrOcpd_of_colorMode (v : Byte) {s : State} (h : s.cfg.colorMode = true) :
    exec (.wrOcpd v) s = .next { s with objPal := palDataWrite v s.objPal } :=
  congrArg Host.Outcome.next (if_pos h)

/-- Settles O19: each of the two writes replaces the pair of its set by what `PalDataWrite` makes of it. -/
theorem paletteDataWritesOneEntry : Obligations.PaletteDataWritesOneEntry := fun s v hcolor =>
  ⟨⟨_, exec_wrBcpd_of_colorMode v hcolor, rfl, palDataWrite_written v s.bgPal⟩,
    ⟨_, exec_wrOcpd_of_colorMode v hcolor, rfl, palDataWrite_written v s.objPal⟩⟩

end Sys2Proof.Machine
end

section
/-! PROOF. Sprite selection (R331): a prefix of the covering entries, which stand in table order. -/

namespace Sys2Proof.Machine

/-- A descriptor's span covers a scanline: not above its top row, and above the row after its last (R331). -/
theorem covers_iff (sp : Sprite) (h : Nat) (ly : Byte) :
    covers sp h ly = true ↔ sp.y ≤ (ly.toNat : Int) ∧ (ly.toNat : Int) < sp.y + (h : Int) := by
  rw [covers, Bool.and_eq_true, decide_eq_true_iff, decide_eq_true_iff]

/-- All entries that cover a scanline, in table order: what the selection takes its first ten of. -/
def coveringEntries (s : State) (ly : Byte) (h : Nat) : List (Fin 40) :=
  (List.finRange 40).filter fun n => covers (spriteAt s n) h ly

theorem selectSprites_eq_take (s : State) (ly : Byte) (h : Nat) :
    selectSprites s ly h = (coveringEntries s ly h).take 10 := rfl

theorem mem_coveringEntries (s : State) (ly : Byte) (h : Nat) (n : Fin 40) :
    n ∈ coveringEntries s ly h ↔ covers (spriteAt s n) h ly = true := by
  simp [coveringEntries]

/-- Filtering keeps the table's order. -/
theorem coveringEntries_pairwise_lt (s : State) (ly : Byte) (h : Nat) : (coveringEntries s ly h).Pairwise (· < ·) :=
  (List.sortedLT_finRange 40).pairwise.filter _

/-- In a rising list an entry outside the first `k` comes after `k` smaller ones: it stands in the rest of the list, so the
prefix is full, and all of the prefix is before it. -/
theorem take_full_and_lt_of_notMem_take {α : Type} [LT α] {l : List α} (hl : l.Pairwise (· < ·)) {k : Nat} {a : α}
    (ha : a ∈ l) (hout : a ∉ l.take k) : (l.take k).length = k ∧ ∀ b ∈ l.take k, b < a := by
  rw [← List.take_append_drop k l] at ha hl
  have hrest : a ∈ l.drop k := (List.mem_append.mp ha).resolve_left hout
  obtain ⟨-, -, hbefore⟩ := List.pairwise_append.mp hl
  refine ⟨?full, fun b hb => hbefore b hb a hrest⟩
  have hpos : 0 < (l.drop k).length := List.length_pos_of_mem hrest
  rw [List.length_drop] at hpos
  exact List.length_take_of_le (by omega)

/-- Settles O36: the selection is the first ten of the covering entries, which are in rising order. -/
theorem selectionIsTheFirstTenCovering : Obligations.SelectionIsTheFirstTenCovering := by
  intro s ly h
  simp only [selectSprites_eq_take, ← covers_iff, ← mem_coveringEntries]
  have hrising := coveringEntries_pairwise_lt s ly h
  refine ⟨?order, List.length_take_le 10 _, fun _ hn => List.mem_of_mem_take hn, fun _ hcov hout => ?leftOut⟩
  case order => exact hrising.sublist (List.take_sublist 10 _)
  case leftOut => exact take_full_and_lt_of_notMem_take hrising hcov hout

end Sys2Proof.Machine
end

section
/-! PROOF. The trace words (R86, R120 to R124, R140): every operation is of one of ten formats, and on each the encoder and
the decoder undo each other. -/

namespace Sys2Proof

/-! ## The formats of the operations -/

/-- The operation is of one of the ten formats the encoding tells apart (R120 to R124): the 42 register accesses are two of
them. -/
inductive Instr.Format : Instr → Prop
  | reset : Format .reset
  | step (n : Int) : Format (.step n)
  | regWrite (r : Reg) (v : Byte) : Format (r.write v)
  | regRead (r : Reg) : Format r.read
  | vramWrite (off : VramOffset) (v : Byte) : Format (.wrVram off v)
  | vramRead (off : VramOffset) : Format (.rdVram off)
  | oamWrite (i : Fin 160) (v : Byte) : Format (.wrOam i v)
  | oamRead (i : Fin 160) : Format (.rdOam i)
  | unmappedWrite (a : BusAddr) (v : Byte) : Format (.wrUnmapped a v)
  | unmappedRead (a : BusAddr) : Format (.rdUnmapped a)

theorem Instr.format : ∀ i : Instr, i.Format
  | .reset => .reset
  | .step n => .step n
  | .wrLcdc v => .regWrite .lcdc v | .rdLcdc => .regRead .lcdc
  | .wrStat v => .regWrite .stat v | .rdStat => .regRead .stat
  | .wrScy v => .regWrite .scy v | .rdScy => .regRead .scy
  | .wrScx v => .regWrite .scx v | .rdScx => .regRead .scx
  | .wrLy v => .regWrite .ly v | .rdLy => .regRead .ly
  | .wrLyc v => .regWrite .lyc v | .rdLyc => .regRead .lyc
  | .wrBgp v => .regWrite .bgp v | .rdBgp => .regRead .bgp
  | .wrObp0 v => .regWrite .obp0 v | .rdObp0 => .regRead .obp0
  | .wrObp1 v => .regWrite .obp1 v | .rdObp1 => .regRead .obp1
  | .wrWy v => .regWrite .wy v | .rdWy => .regRead .wy
  | .wrWx v => .regWrite .wx v | .rdWx => .regRead .wx
  | .wrVbk v => .regWrite .vbk v | .rdVbk => .regRead .vbk
  | .wrHdma1 v => .regWrite .hdma1 v | .rdHdma1 => .regRead .hdma1
  | .wrHdma2 v => .regWrite .hdma2 v | .rdHdma2 => .regRead .hdma2
  | .wrHdma3 v => .regWrite .hdma3 v | .rdHdma3 => .regRead .hdma3
  | .wrHdma4 v => .regWrite .hdma4 v | .rdHdma4 => .regRead .hdma4
  | .wrHdma5 v => .regWrite .hdma5 v | .rdHdma5 => .regRead .hdma5
  | .wrBcps v => .regWrite .bcps v | .rdBcps => .regRead .bcps
  | .wrBcpd v => .regWrite .bcpd v | .rdBcpd => .regRead .bcpd
  | .wrOcps v => .regWrite .ocps v | .rdOcps => .regRead .ocps
  | .wrOcpd v => .regWrite .ocpd v | .rdOcpd => .regRead .ocpd
  | .wrVram off v => .vramWrite off v
  | .rdVram off => .vramRead off
  | .wrOam i v => .oamWrite i v
  | .rdOam i => .oamRead i
  | .wrUnmapped a v => .unmappedWrite a v
  | .rdUnmapped a => .unmappedRead a

theorem encode_regWrite (m : AddrMap) (r : Reg) (v : Byte) : encode m (r.write v) = busWrite (m.regAddr r) v := by
  cases r <;> rfl

theorem encode_regRead (m : AddrMap) (r : Reg) : encode m r.read = busRead (m.regAddr r) := by
  cases r <;> rfl

theorem Reg.write_wf (m : AddrMap) (r : Reg) (v : Byte) : (r.write v).wf m = true := by
  cases r <;> rfl

theorem Reg.read_wf (m : AddrMap) (r : Reg) : r.read.wf m = true := by
  cases r <;> rfl

/-! ## What an address selects, and the address of what is selected -/

section
variable {m : AddrMap}

/-- An address at an offset of the VRAM window selects that offset (R86). -/
theorem AddrMap.select_of_toNat_vram {a : BusAddr} {off : Nat} (hoff : off < 0x2000)
    (ha : a.toNat = m.vramBase.toNat + off) : m.select a = .vram (BitVec.ofNat 13 off) := by
  have hin : m.vramBase.toNat ≤ a.toNat ∧ a.toNat < m.vramBase.toNat + 0x2000 := by omega
  have hback : a.toNat - m.vramBase.toNat = off := by omega
  rw [AddrMap.select, if_pos hin, hback]

/-- An address at a byte of the OAM window, outside the VRAM window, selects that byte (R86). -/
theorem AddrMap.select_of_toNat_oam {a : BusAddr} {i : Fin 160} (ha : a.toNat = m.oamBase.toNat + i.val)
    (hout : ¬ (m.vramBase.toNat ≤ a.toNat ∧ a.toNat < m.vramBase.toNat + 0x2000)) : m.select a = .oam i := by
  have hi := i.isLt
  have hin : m.oamBase.toNat ≤ a.toNat ∧ a.toNat < m.oamBase.toNat + 0xA0 := by omega
  have hback : a.toNat - m.oamBase.toNat = i.val := by omega
  rw [AddrMap.select, if_neg hout, dif_pos hin, BusTarget.oam.injEq]
  exact Fin.ext hback

/-- The address of an offset of the VRAM window selects it: the window lies inside the bus space (R84, R86). -/
theorem AddrMap.select_vram (h : m.wf = true) {off : Nat} (hoff : off < 0x2000) :
    m.select (BitVec.ofNat 16 (m.vramBase.toNat + off)) = .vram (BitVec.ofNat 13 off) := by
  obtain ⟨hbase, -, -⟩ := AddrMap.windows h
  exact AddrMap.select_of_toNat_vram hoff (by rw [BitVec.toNat_ofNat]; omega)

/-- The address of a byte of the OAM window selects it: the windows lie apart (R84, R86). -/
theorem AddrMap.select_oam (h : m.wf = true) (i : Fin 160) :
    m.select (BitVec.ofNat 16 (m.oamBase.toNat + i.val)) = .oam i := by
  obtain ⟨-, hbase, hapart⟩ := AddrMap.windows h
  have hi := i.isLt
  have haddr : (BitVec.ofNat 16 (m.oamBase.toNat + i.val)).toNat = m.oamBase.toNat + i.val := by
    rw [BitVec.toNat_ofNat]; omega
  exact AddrMap.select_of_toNat_oam haddr (by omega)

/-- The address of the selected place of the VRAM window is the address that selected it, whatever the map. -/
theorem AddrMap.addr_of_select_vram {a : BusAddr} {off : VramOffset} (h : m.select a = .vram off) :
    BitVec.ofNat 16 (m.vramBase.toNat + off.toNat) = a := by
  unfold AddrMap.select at h
  split at h
  case isTrue hin =>
    cases h
    obtain ⟨hlow, hhigh⟩ : m.vramBase.toNat ≤ a.toNat ∧ a.toNat < m.vramBase.toNat + 0x2000 := hin
    apply BitVec.eq_of_toNat_eq
    have := a.isLt
    rw [BitVec.toNat_ofNat, BitVec.toNat_ofNat]
    omega
  case isFalse =>
    split at h
    · cases h
    · split at h <;> cases h

/-- The address of the selected byte of the OAM window is the address that selected it, whatever the map. -/
theorem AddrMap.addr_of_select_oam {a : BusAddr} {i : Fin 160} (h : m.select a = .oam i) :
    BitVec.ofNat 16 (m.oamBase.toNat + i.val) = a := by
  unfold AddrMap.select at h
  split at h
  case isTrue => cases h
  case isFalse =>
    split at h
    case isTrue hin =>
      cases h
      apply BitVec.eq_of_toNat_eq
      have := a.isLt
      rw [BitVec.toNat_ofNat]
      dsimp only
      omega
    case isFalse => split at h <;> cases h

/-- The address of the selected register is the address that selected it, whatever the map. -/
theorem AddrMap.addr_of_select_reg {a : BusAddr} {r : Reg} (h : m.select a = .reg r) : m.regAddr r = a := by
  unfold AddrMap.select at h
  split at h
  case isTrue => cases h
  case isFalse =>
    split at h
    case isTrue => cases h
    case isFalse =>
      split at h
      case h_1 q hq => cases h; exact AddrMap.regAddr_of_findReg hq
      case h_2 => cases h

end

/-! ## Decode of encode -/

/-- The write of what an address selects (R124). -/
def BusTarget.write (a : BusAddr) (v : Byte) : BusTarget → Instr
  | .vram off => .wrVram off v
  | .oam i => .wrOam i v
  | .reg r => r.write v
  | .unmapped => .wrUnmapped a v

/-- The read of what an address selects (R124). -/
def BusTarget.read (a : BusAddr) : BusTarget → Instr
  | .vram off => .rdVram off
  | .oam i => .rdOam i
  | .reg r => r.read
  | .unmapped => .rdUnmapped a

theorem decodeWrite_eq_write_select (m : AddrMap) (a : BusAddr) (v : Byte) :
    decodeWrite m a v = (m.select a).write a v := rfl

theorem decodeRead_eq_read_select (m : AddrMap) (a : BusAddr) : decodeRead m a = (m.select a).read a := rfl

theorem decode_busWrite_of_select {m : AddrMap} {a : BusAddr} {t : BusTarget} (h : m.select a = t) (v : Byte) :
    decode m (busWrite a v) = some (t.write a v) := by
  rw [decode_busWrite, decodeWrite_eq_write_select, h]

theorem decode_busRead_of_select {m : AddrMap} {a : BusAddr} {t : BusTarget} (h : m.select a = t) :
    decode m (busRead a) = some (t.read a) := by
  rw [decode_busRead, decodeRead_eq_read_select, h]

/-- Settles O5: the address of each target selects it, and a bus word decodes to the access of what its address selects. -/
theorem busAddressSelectsItsTarget : Obligations.BusAddressSelectsItsTarget := by
  intro m hm v
  refine ⟨fun off hoff => ?vram, fun i => ?oam, fun r => ?reg, fun a ha => ?unmapped⟩
  case vram =>
    have hsel := AddrMap.select_vram hm hoff
    exact ⟨decode_busWrite_of_select hsel v, decode_busRead_of_select hsel⟩
  case oam =>
    have hsel := AddrMap.select_oam hm i
    exact ⟨decode_busWrite_of_select hsel v, decode_busRead_of_select hsel⟩
  case reg =>
    have hsel := AddrMap.select_regAddr hm r
    exact ⟨decode_busWrite_of_select hsel v, decode_busRead_of_select hsel⟩
  case unmapped =>
    have hsel := (AddrMap.select_eq_unmapped a).2 ha
    exact ⟨decode_busWrite_of_select hsel v, decode_busRead_of_select hsel⟩

/-- The count of a well-formed `STEP` goes through its 30 bits unchanged (R122). -/
theorem decode_encode_step {m : AddrMap} {n : Int} (h : (Instr.step n).wf m = true) :
    decode m (encode m (.step n)) = some (.step n) := by
  simp only [Instr.wf, Bool.and_eq_true, decide_eq_true_eq] at h
  obtain ⟨hnonneg, hlt⟩ := h
  rw [encode, decode_stepWord, BitVec.toNat_ofNat]
  congr 2
  omega

/-- The address of a well-formed unmapped access selects nothing (R86). -/
theorem select_of_unmapped_wf {m : AddrMap} {a : BusAddr} (h : (!m.answers a) = true) : m.select a = .unmapped :=
  (AddrMap.select_eq_unmapped a).2 (by rwa [Bool.not_eq_true'] at h)

/-- Settles O2, by the format of the operation: the address of a well-formed bus access selects its target. -/
theorem decodeOfEncodeIsTheOperation : Obligations.DecodeOfEncodeIsTheOperation := by
  intro m i hm hi
  cases i.format with
  | reset => exact decode_resetWord m
  | step n => exact decode_encode_step hi
  | regWrite r v =>
    rw [encode_regWrite]
    exact decode_busWrite_of_select (AddrMap.select_regAddr hm r) v
  | regRead r =>
    rw [encode_regRead]
    exact decode_busRead_of_select (AddrMap.select_regAddr hm r)
  | vramWrite off v =>
    have hsel := AddrMap.select_vram hm off.isLt
    rw [BitVec.ofNat_toNat, BitVec.setWidth_eq] at hsel
    exact decode_busWrite_of_select hsel v
  | vramRead off =>
    have hsel := AddrMap.select_vram hm off.isLt
    rw [BitVec.ofNat_toNat, BitVec.setWidth_eq] at hsel
    exact decode_busRead_of_select hsel
  | oamWrite i v => exact decode_busWrite_of_select (AddrMap.select_oam hm i) v
  | oamRead i => exact decode_busRead_of_select (AddrMap.select_oam hm i)
  | unmappedWrite a v => exact decode_busWrite_of_select (select_of_unmapped_wf hi) v
  | unmappedRead a => exact decode_busRead_of_select (select_of_unmapped_wf hi)

/-! ## Encode of decode -/

/-- A decoded bus write is well-formed and its word is the bus word of the address and the byte, whatever the map (R124). -/
theorem encode_decodeWrite (m : AddrMap) (a : BusAddr) (v : Byte) :
    (decodeWrite m a v).wf m = true ∧ encode m (decodeWrite m a v) = busWrite a v := by
  rw [decodeWrite_eq_write_select]
  cases hsel : m.select a with
  | vram off => exact ⟨rfl, congrArg (busWrite · v) (AddrMap.addr_of_select_vram hsel)⟩
  | oam i => exact ⟨rfl, congrArg (busWrite · v) (AddrMap.addr_of_select_oam hsel)⟩
  | reg r => exact ⟨Reg.write_wf m r v, (encode_regWrite m r v).trans (by rw [AddrMap.addr_of_select_reg hsel])⟩
  | unmapped => exact ⟨congrArg Bool.not ((AddrMap.select_eq_unmapped a).1 hsel), rfl⟩

/-- A decoded bus read is well-formed and its word is the bus word of the address, whatever the map (R124). -/
theorem encode_decodeRead (m : AddrMap) (a : BusAddr) :
    (decodeRead m a).wf m = true ∧ encode m (decodeRead m a) = busRead a := by
  rw [decodeRead_eq_read_select]
  cases hsel : m.select a with
  | vram off => exact ⟨rfl, congrArg busRead (AddrMap.addr_of_select_vram hsel)⟩
  | oam i => exact ⟨rfl, congrArg busRead (AddrMap.addr_of_select_oam hsel)⟩
  | reg r => exact ⟨Reg.read_wf m r, (encode_regRead m r).trans (by rw [AddrMap.addr_of_select_reg hsel])⟩
  | unmapped => exact ⟨congrArg Bool.not ((AddrMap.select_eq_unmapped a).1 hsel), rfl⟩

/-- A decoded count is well-formed and goes back into its 30 bits unchanged (R122). -/
theorem encode_decoded_step (m : AddrMap) (n : BitVec 30) :
    (Instr.step (n.toNat : Int)).wf m = true ∧ encode m (.step (n.toNat : Int)) = stepWord n := by
  have hlt := n.isLt
  refine ⟨?_, by rw [encode, Int.toNat_natCast, BitVec.ofNat_toNat, BitVec.setWidth_eq]⟩
  simp only [Instr.wf, Bool.and_eq_true, decide_eq_true_eq]
  omega

theorem kind_cases (k : BitVec 2) : k = 0b00#2 ∨ k = 0b01#2 ∨ k = 0b10#2 ∨ k = 0b11#2 := by
  revert k; decide

/-! What each kind of word decodes to (R120 to R123). -/

theorem decode_reset_kind {m : AddrMap} {w : TraceWord} (h : TraceWord.kind w = 0b11#2) :
    decode m w = if TraceWord.low30 w = 0#30 then some .reset else none := by
  rw [decode, if_pos h]

theorem decode_step_kind {m : AddrMap} {w : TraceWord} (h : TraceWord.kind w = 0b10#2) :
    decode m w = some (.step ((TraceWord.low30 w).toNat : Int)) := by
  rw [decode, h]; rfl

theorem decode_write_kind {m : AddrMap} {w : TraceWord} (h : TraceWord.kind w = 0b01#2) :
    decode m w = if TraceWord.busZero w = 0#6 then some (decodeWrite m (TraceWord.addr w) (TraceWord.data w)) else none := by
  rw [decode, h]; rfl

theorem decode_read_kind {m : AddrMap} {w : TraceWord} (h : TraceWord.kind w = 0b00#2) :
    decode m w =
      if TraceWord.busZero w = 0#6 ∧ TraceWord.data w = 0#8 then some (decodeRead m (TraceWord.addr w)) else none := by
  rw [decode, h]; rfl

/-- Settles O3, by the kind of the word: a word that decodes is put together from the fields the decoder reads. -/
theorem encodeOfDecodeIsTheWord : Obligations.EncodeOfDecodeIsTheWord := by
  intro m w i h
  rcases kind_cases (TraceWord.kind w) with hk | hk | hk | hk
  · rw [decode_read_kind hk, Option.ite_none_right_eq_some, Option.some.injEq] at h
    obtain ⟨⟨hzero, hdata⟩, rfl⟩ := h
    obtain ⟨hwf, hword⟩ := encode_decodeRead m (TraceWord.addr w)
    exact ⟨hwf, hword.trans (eq_busRead w hk hzero hdata).symm⟩
  · rw [decode_write_kind hk, Option.ite_none_right_eq_some, Option.some.injEq] at h
    obtain ⟨hzero, rfl⟩ := h
    obtain ⟨hwf, hword⟩ := encode_decodeWrite m (TraceWord.addr w) (TraceWord.data w)
    exact ⟨hwf, hword.trans (eq_busWrite w hk hzero).symm⟩
  · rw [decode_step_kind hk, Option.some.injEq] at h
    obtain rfl := h
    obtain ⟨hwf, hword⟩ := encode_decoded_step m (TraceWord.low30 w)
    exact ⟨hwf, hword.trans (eq_stepWord w hk).symm⟩
  · rw [decode_reset_kind hk, Option.ite_none_right_eq_some, Option.some.injEq] at h
    obtain ⟨hzero, rfl⟩ := h
    exact ⟨rfl, (eq_resetWord w hk hzero).symm⟩

/-! ## The words that decode to nothing, and the step -/

namespace Machine

/-- A step with a word to come takes it, and runs the operation it decodes to or refuses it (R140). -/
theorem step_of_pending {s : State} {w : TraceWord} {rest : List TraceWord} (h : s.pending = w :: rest) :
    step s = (decode s.cfg.map w).elim (.refused (.illegalTraceWord w)) (exec · { s with pending := rest }) := by
  have hnext : nextWord s = some (w, { s with pending := rest }) := by rw [nextWord, h]
  rw [step, hnext]
  dsimp only
  cases decode s.cfg.map w <;> rfl

/-- A step with no word to come changes nothing (R5). -/
theorem step_of_no_pending {s : State} (h : s.pending = []) : step s = .next s := by
  rw [step, nextWord, h]

end Machine

/-- Settles O4: the refused words, by the kind of the word; and the step, by the word it takes. -/
theorem reservedBitsAreRefused : Obligations.ReservedBitsAreRefused := by
  intro m w
  refine ⟨?words, fun s rest hmap hpending hnone => ?step⟩
  case words =>
    show decode m w = none ↔
      (TraceWord.kind w = 0b01#2 ∧ TraceWord.busZero w ≠ 0#6) ∨
      (TraceWord.kind w = 0b00#2 ∧ (TraceWord.busZero w ≠ 0#6 ∨ TraceWord.data w ≠ 0#8)) ∨
      (TraceWord.kind w = 0b11#2 ∧ TraceWord.low30 w ≠ 0#30)
    rcases kind_cases (TraceWord.kind w) with hk | hk | hk | hk
    · rw [decode_read_kind hk]
      simp [hk, -not_and, not_and_or]
    · rw [decode_write_kind hk]
      simp [hk]
    · rw [decode_step_kind hk]
      simp [hk]
    · rw [decode_reset_kind hk]
      simp [hk]
  case step => rw [Machine.step_of_pending hpending, hmap, hnone]; rfl

/-- Settles O6: with an operation decoded, the step is its effect on the state without the word. -/
theorem stepRunsTheDecodedOperation : Obligations.StepRunsTheDecodedOperation := by
  intro s w rest i hpending hdecode
  rw [Machine.step_of_pending hpending, hdecode]
  rfl

/-- Settles O1: the decoder run on the twelve words. -/
theorem specExampleWordsDecode : Obligations.SpecExampleWordsDecode := by
  unfold Obligations.SpecExampleWordsDecode
  decide +kernel

end Sys2Proof
end

section
/-! PROOF. The single accesses: what the reads answer (R201 to R223, R265, R288, R304), what the writes store (R202, R208,
R210, R222 to R238, R303), and that an access the block does not answer changes nothing (R240, R243, R244). -/

namespace Sys2Proof.Machine

open Sys2Proof.Spec

/-! ## The two variants (R240) -/

theorem colorWrite_of_color {s : State} (h : s.cfg.colorMode = true) (f : State → State) : colorWrite f s = f s := if_pos h

theorem colorWrite_of_mono {s : State} (h : s.cfg.colorMode = false) (f : State → State) : colorWrite f s = s :=
  if_neg (by simp [h])

theorem colorRead_of_color {s : State} (h : s.cfg.colorMode = true) (f : State → State) : colorRead f s = f s := if_pos h

theorem colorRead_of_mono {s : State} (h : s.cfg.colorMode = false) (f : State → State) : colorRead f s = answerNone s :=
  if_neg (by simp [h])

/-! ## Bytes put together from fields -/

/-- The bits of the `STAT` byte below the free one (R203). -/
theorem statByte_fields (s : State) (draw : Byte) :
    (statByte s draw).getLsbD 6 = s.stat.lycIe ∧ (statByte s draw).getLsbD 5 = s.stat.oamIe ∧
    (statByte s draw).getLsbD 4 = s.stat.vblankIe ∧ (statByte s draw).getLsbD 3 = s.stat.hblankIe ∧
    (statByte s draw).getLsbD 2 = s.stat.coinc ∧ (statByte s draw).extractLsb' 0 2 = modeCode s.mode := by
  refine ⟨?lyc, ?oam, ?vblank, ?hblank, ?coinc, BitVec.extractLsb'_append_eq_right⟩
  case lyc | oam | vblank | hblank | coinc =>
    unfold statByte
    repeat rw [BitVec.getLsbD_append]
    simp

/-- The fields of the byte an index register reads as (R235, R239). -/
theorem indexByte_fields (p : PalPort) (draw : Byte) :
    (indexByte p draw).getLsbD 7 = p.autoInc ∧ (indexByte p draw).extractLsb' 0 6 = p.index := by
  refine ⟨?_, BitVec.extractLsb'_append_eq_right⟩
  unfold indexByte
  repeat rw [BitVec.getLsbD_append]
  simp

/-! ## Settled: plain registers -/

/-- Settles O10: the meaning of the write is those four fields replaced. -/
theorem wrStatStoresOnlyTheEnables : Obligations.WrStatStoresOnlyTheEnables := fun _ _ => rfl

/-- Settles O11: the answer is the `STAT` byte under a fresh draw. -/
theorem rdStatShowsEnablesCoincidenceAndMode : Obligations.RdStatShowsEnablesCoincidenceAndMode := by
  intro s
  obtain ⟨hlyc, hoam, hvblank, hhblank, hcoinc, hmode⟩ := statByte_fields s (Config.unspec s.unspecDraws)
  exact ⟨_, rfl, hlyc, hoam, hvblank, hhblank, hcoinc, hmode.trans (by cases s.mode <;> rfl)⟩

/-- Settles O12: each of the ten reads answers its register. -/
theorem registerReadsGiveTheStoredByte : Obligations.RegisterReadsGiveTheStoredByte := fun _ =>
  ⟨rfl, rfl, rfl, rfl, rfl, rfl, rfl, rfl, rfl, rfl⟩

/-- The comparison after `LY` and `LYC` were given values (R174). -/
theorem lycCompare_eq_compared (s : State) (ly lyc : Byte) :
    lycCompare { s with ly := ly, lyc := lyc } = compared s ly lyc := lycCompare_frame _

/-- Settles O13: the write is the comparison with the index 0. -/
theorem wrLyClearsTheIndexAndCompares : Obligations.WrLyClearsTheIndexAndCompares := fun s _ =>
  congrArg Host.Outcome.next (lycCompare_eq_compared s 0x00#8 s.lyc)

/-- Settles O14: the write is the comparison with the written byte. -/
theorem wrLycStoresAndCompares : Obligations.WrLycStoresAndCompares := fun s v =>
  congrArg Host.Outcome.next (lycCompare_eq_compared s s.ly v)

/-! ## Settled: the colour variant's registers -/

/-- Settles O16: in the colour variant each write is its own effect. -/
theorem colourRegisterWrites : Obligations.ColourRegisterWrites := by
  intro s v hcolor
  have hwrite (f : State → State) : Host.Outcome.next (colorWrite f s) = (.next (f s) : Result) :=
    congrArg _ (colorWrite_of_color hcolor f)
  exact ⟨hwrite _, hwrite _, hwrite _, hwrite _, hwrite _, hwrite _, hwrite _⟩

/-- Settles O17: in the colour variant each read is its own answer. -/
theorem colourRegisterReads : Obligations.ColourRegisterReads := by
  intro s hcolor
  have hread (f : State → State) : Host.Outcome.next (colorRead f s) = (.next (f s) : Result) :=
    congrArg _ (colorRead_of_color hcolor f)
  exact ⟨⟨_, hread _, BitVec.extractLsb'_append_eq_right⟩, hread _, hread _, hread _, hread _, hread _,
    ⟨_, hread _, indexByte_fields _ _⟩, ⟨_, hread _, indexByte_fields _ _⟩⟩

/-- Settles O18: in the monochrome variant a colour-only write does nothing and a colour-only read is not answered. -/
theorem unmappedAndAbsentAccessesChangeNothing : Obligations.UnmappedAndAbsentAccessesChangeNothing := by
  intro s a v
  refine ⟨⟨rfl, rfl⟩, fun hmono => ⟨?writes, ?reads⟩⟩
  case writes =>
    have hwrite (f : State → State) : Host.Outcome.next (colorWrite f s) = (.next s : Result) :=
      congrArg _ (colorWrite_of_mono hmono f)
    simp only [List.forall_mem_cons, List.not_mem_nil, false_imp_iff, implies_true, and_true]
    exact ⟨hwrite _, hwrite _, hwrite _, hwrite _, hwrite _, hwrite _, hwrite _, hwrite _, hwrite _, hwrite _⟩
  case reads =>
    have hread (f : State → State) : Host.Outcome.next (colorRead f s) = (.next (answerNone s) : Result) :=
      congrArg _ (colorRead_of_mono hmono f)
    simp only [List.forall_mem_cons, List.not_mem_nil, false_imp_iff, implies_true, and_true]
    exact ⟨hread _, hread _, hread _, hread _, hread _, hread _, hread _, hread _, hread _, hread _⟩

/-- The entry a palette byte address names, from its palette and its colour number (R131, R285). -/
theorem palEntry_eq_append (a : BitVec 6) : a.extractLsb' 3 3 ++ a.extractLsb' 1 2 = palEntry a :=
  (entry_eq_palEntry_iff _ _ a).2 ⟨rfl, rfl⟩

/-- A read whose meaning is `PalDataRead` of a pair answers the addressed half (R288). -/
theorem palAnswered_of_exec {p : PalPort} {i : Instr} {s : State} (h : exec i s = .next (palDataRead p s)) :
    PalAnswered p i s := by
  unfold PalAnswered
  rw [palEntry_eq_append, h, palDataRead, palHalf]
  cases p.index.getLsbD 0
  case true => exact ⟨_, rfl, BitVec.extractLsb'_append_eq_right⟩
  case false => rfl

/-- Settles O20: in the colour variant the two reads are `PalDataRead` of their pairs. -/
theorem paletteDataReads : Obligations.PaletteDataReads := fun _ hcolor =>
  ⟨palAnswered_of_exec (congrArg Host.Outcome.next (colorRead_of_color hcolor _)),
    palAnswered_of_exec (congrArg Host.Outcome.next (colorRead_of_color hcolor _))⟩

/-! ## Settled: the memories -/

/-- Settles O24: the read answers the byte of the bank the bus reaches. -/
theorem rdVramGivesTheSelectedBanksByte : Obligations.RdVramGivesTheSelectedBanksByte := fun _ _ => rfl

/-- Settles O26: the write stores the byte and decodes the table afresh, and a descriptor decoded afresh is that of the
stored bytes. -/
theorem wrOamStoresAndRefreshes : Obligations.WrOamStoresAndRefreshes := fun s i v =>
  ⟨_, rfl, rfl, oamRead_oamStore i.val v s, spriteAt_refreshSprites (oamStore i.val v s)⟩

/-- Settles O27: the read answers the byte. -/
theorem rdOamGivesTheRawByte : Obligations.RdOamGivesTheRawByte := fun _ _ => rfl

end Sys2Proof.Machine
end

section
/-! PROOF. What the operations do as wholes (R7, R8, R90, R431): every one but a negative `STEP` answers a next state, a read
leaves all but the answer, and an access that raises nothing leaves the sequencer, the picture and the output. -/

namespace Sys2Proof.Machine

open Sys2Proof.Spec

/-! ## Reads -/

/-- At most the answer and the count of free draws differ (R90). -/
structure OnlyAnswers (s t : State) : Prop where
  eq : t = { s with answer := t.answer, unspecDraws := t.unspecDraws }

theorem onlyAnswers_answerByte (v : Byte) (s : State) : OnlyAnswers s (answerByte v s) := ⟨rfl⟩

theorem onlyAnswers_answerDraw (f : Byte → Byte) (s : State) : OnlyAnswers s (answerDraw f s) := ⟨rfl⟩

theorem onlyAnswers_palDataRead (p : PalPort) (s : State) : OnlyAnswers s (palDataRead p s) := by
  unfold palDataRead
  dsimp only
  split
  · exact onlyAnswers_answerDraw _ s
  · exact onlyAnswers_answerByte _ s

theorem onlyAnswers_colorRead {f : State → State} {s : State} (h : OnlyAnswers s (f s)) : OnlyAnswers s (colorRead f s) := by
  unfold colorRead
  split
  · exact h
  · exact ⟨rfl⟩

theorem exec_regRead (r : Reg) (s : State) : ∃ t, exec r.read s = .next t ∧ OnlyAnswers s t := by
  cases r with
  | lcdc | scy | scx | ly | lyc | bgp | obp0 | obp1 | wy | wx => exact ⟨_, rfl, onlyAnswers_answerByte _ s⟩
  | stat => exact ⟨_, rfl, onlyAnswers_answerDraw _ s⟩
  | vbk | bcps | ocps => exact ⟨_, rfl, onlyAnswers_colorRead (onlyAnswers_answerDraw _ s)⟩
  | hdma1 | hdma2 | hdma3 | hdma4 | hdma5 => exact ⟨_, rfl, onlyAnswers_colorRead (onlyAnswers_answerByte _ s)⟩
  | bcpd | ocpd => exact ⟨_, rfl, onlyAnswers_colorRead (onlyAnswers_palDataRead _ s)⟩

theorem not_isRead_regWrite (r : Reg) (v : Byte) : isRead (r.write v) = false := by cases r <;> rfl

/-- A read completes, and at most the answer and the count of free draws differ after it (R90). -/
theorem exec_read {i : Instr} (h : isRead i = true) (s : State) : ∃ t, exec i s = .next t ∧ OnlyAnswers s t := by
  cases i.format with
  | regRead r => exact exec_regRead r s
  | vramRead off => exact ⟨_, rfl, onlyAnswers_answerByte _ s⟩
  | oamRead i => exact ⟨_, rfl, onlyAnswers_answerByte _ s⟩
  | unmappedRead a => exact ⟨_, rfl, ⟨rfl⟩⟩
  | regWrite r v => rw [not_isRead_regWrite] at h; cases h
  | reset | step | vramWrite | oamWrite | unmappedWrite => cases h

/-- Settles O55: the one fact about reads. -/
theorem readsHaveNoSideEffects : Obligations.ReadsHaveNoSideEffects := by
  intro i s h
  obtain ⟨t, hexec, honly⟩ := exec_read h s
  exact ⟨t, hexec, honly.eq⟩

/-! ## Accesses that leave the sequencer and the picture -/

/-- The parameters, the sequencer less the scanline index, and the picture are as before (R431, R340). -/
structure KeepsPicture (s t : State) : Prop where
  cfg       : t.cfg = s.cfg := by rfl
  mode      : t.mode = s.mode := by rfl
  lineCycle : t.lineCycle = s.lineCycle := by rfl
  displayOn : t.displayOn = s.displayOn := by rfl
  frame     : t.frame = s.frame := by rfl
  lineColor : t.lineColor = s.lineColor := by rfl
  lineRaw   : t.lineRaw = s.lineRaw := by rfl
  linePrio  : t.linePrio = s.linePrio := by rfl

/-- The scanline index and the output are as before too (R173, R375). -/
structure Quiet (s t : State) : Prop extends KeepsPicture s t where
  ly       : t.ly = s.ly := by rfl
  ifVblank : t.ifVblank = s.ifVblank := by rfl
  ifStat   : t.ifStat = s.ifStat := by rfl
  trace    : t.trace = s.trace := by rfl

theorem OnlyAnswers.quiet {s t : State} (h : OnlyAnswers s t) : Quiet s t := by
  rw [h.eq]
  exact {}

theorem quiet_colorWrite {f : State → State} {s : State} (h : Quiet s (f s)) : Quiet s (colorWrite f s) := by
  unfold colorWrite
  split
  · exact h
  · exact {}

theorem quiet_vramWrite (b : Bank) (a : VramOffset) (v : Byte) (s : State) : Quiet s (vramWrite b a v s) := by
  rw [vramWrite_frame]
  exact {}

theorem quiet_generalTransfer (n : Nat) (s : State) : Quiet s (generalTransfer n s) := by
  unfold generalTransfer
  rw [copyBlocks_frame]
  exact {}

theorem quiet_dmaControlWrite (v : Byte) (s : State) : Quiet s (dmaControlWrite v s) := by
  unfold dmaControlWrite
  split
  · exact {}
  · split
    · exact {}
    · exact quiet_generalTransfer _ s

theorem exec_wrLcdc_quiet (v : Byte) (s : State) : ∃ t, exec (.wrLcdc v) s = .next t ∧ Quiet s t := by
  by_cases hsize : v.getLsbD 2 = s.lcdc.getLsbD 2
  · exact ⟨_, exec_wrLcdc_of_size_eq hsize, {}⟩
  · exact ⟨_, exec_wrLcdc_of_size_ne hsize, {}⟩

theorem exec_regWrite_quiet {r : Reg} {v : Byte} (h : mayRaise (r.write v) = false) (s : State) :
    ∃ t, exec (r.write v) s = .next t ∧ Quiet s t := by
  cases r with
  | lcdc => exact exec_wrLcdc_quiet v s
  | stat | scy | scx | bgp | obp0 | obp1 | wy | wx => exact ⟨_, rfl, {}⟩
  | ly | lyc => cases h
  | vbk | hdma1 | hdma2 | hdma3 | hdma4 | bcps | bcpd | ocps | ocpd => exact ⟨_, rfl, quiet_colorWrite {}⟩
  | hdma5 => exact ⟨_, rfl, quiet_colorWrite (quiet_dmaControlWrite v s)⟩

/-- An operation that is neither `RESET` nor one of those that can raise a request completes, and leaves the parameters, the
sequencer, the picture and the output (R431, R173, R340, R375). -/
theorem exec_quiet {i : Instr} (hreset : i ≠ .reset) (hraise : mayRaise i = false) (s : State) :
    ∃ t, exec i s = .next t ∧ Quiet s t := by
  cases i.format with
  | reset => exact absurd rfl hreset
  | step n => cases hraise
  | regWrite r v => exact exec_regWrite_quiet hraise s
  | regRead r =>
    obtain ⟨t, hexec, honly⟩ := exec_regRead r s
    exact ⟨t, hexec, honly.quiet⟩
  | vramWrite off v => exact ⟨_, rfl, quiet_vramWrite _ _ _ s⟩
  | oamWrite i v => exact ⟨_, rfl, {}⟩
  | vramRead | oamRead | unmappedWrite | unmappedRead => exact ⟨_, rfl, {}⟩

theorem keepsPicture_compared (s : State) (ly lyc : Byte) : KeepsPicture s (compared s ly lyc) := {}

/-- The operations that can raise a request (R375). -/
theorem mayRaise_cases {i : Instr} (h : mayRaise i = true) :
    (∃ n, i = .step n) ∨ (∃ v, i = .wrLy v) ∨ ∃ v, i = .wrLyc v := by
  cases i with
  | step n => exact .inl ⟨n, rfl⟩
  | wrLy v => exact .inr (.inl ⟨v, rfl⟩)
  | wrLyc v => exact .inr (.inr ⟨v, rfl⟩)
  | _ => cases h

/-- Settles O56: an access that raises nothing leaves it all, and `WR LY` and `WR LYC` are a comparison. -/
theorem onlyStepMovesTheSequencerAndThePicture : Obligations.OnlyStepMovesTheSequencerAndThePicture := by
  intro i s hstep hreset
  have hfields {t : State} (h : KeepsPicture s t) (hly : (∀ v, i ≠ .wrLy v) → t.ly = s.ly) :
      t.mode = s.mode ∧ t.lineCycle = s.lineCycle ∧ t.displayOn = s.displayOn ∧ t.frame = s.frame ∧
      t.lineColor = s.lineColor ∧ t.lineRaw = s.lineRaw ∧ t.linePrio = s.linePrio ∧
      ((∀ v, i ≠ .wrLy v) → t.ly = s.ly) :=
    ⟨h.mode, h.lineCycle, h.displayOn, h.frame, h.lineColor, h.lineRaw, h.linePrio, hly⟩
  cases hraise : mayRaise i with
  | false =>
    obtain ⟨t, hexec, hquiet⟩ := exec_quiet hreset hraise s
    exact ⟨t, hexec, hfields hquiet.toKeepsPicture fun _ => hquiet.ly⟩
  | true =>
    rcases mayRaise_cases hraise with ⟨n, rfl⟩ | ⟨v, rfl⟩ | ⟨v, rfl⟩
    · cases hstep
    · exact ⟨_, wrLyClearsTheIndexAndCompares s v,
        hfields (keepsPicture_compared s _ _) fun hne => absurd rfl (hne v)⟩
    · exact ⟨_, wrLycStoresAndCompares s v, hfields (keepsPicture_compared s _ _) fun _ => rfl⟩

/-! ## Completion -/

/-- Settles O38: the count is below 0. -/
theorem negativeStepIsTheContractViolation : Obligations.NegativeStepIsTheContractViolation := fun _ _ hneg => if_pos hneg

/-- Every operation but a `STEP` with a negative count answers a next state (R7). -/
theorem exec_completes (i : Instr) (s : State) (h : ∀ n, i = .step n → 0 ≤ n) : ∃ t, exec i s = .next t := by
  by_cases hreset : i = .reset
  · exact ⟨_, by rw [hreset]; rfl⟩
  cases hraise : mayRaise i with
  | false =>
    obtain ⟨t, hexec, -⟩ := exec_quiet hreset hraise s
    exact ⟨t, hexec⟩
  | true =>
    rcases mayRaise_cases hraise with ⟨n, rfl⟩ | ⟨v, rfl⟩ | ⟨v, rfl⟩
    · exact ⟨_, if_neg (not_lt.2 (h n rfl))⟩
    · exact ⟨_, wrLyClearsTheIndexAndCompares s v⟩
    · exact ⟨_, wrLycStoresAndCompares s v⟩

/-- An operation answers a next state, or it is a `STEP` with a negative count and the contract violation (R372). -/
theorem exec_next_or_violation (i : Instr) (s : State) :
    (∃ t, exec i s = .next t) ∨
    ∃ n, i = .step n ∧ n < 0 ∧ exec i s = .fault (.contractViolation .negativeCycleCount) := by
  by_cases h : ∀ n, i = .step n → 0 ≤ n
  · exact .inl (exec_completes i s h)
  · push Not at h
    obtain ⟨n, rfl, hneg⟩ := h
    exact .inr ⟨n, rfl, hneg, negativeStepIsTheContractViolation s n hneg⟩

/-- Settles O7: completion, its converse, and the step as what its word says. -/
theorem noOperationInRangeFaults : Obligations.NoOperationInRangeFaults := by
  refine ⟨exec_completes, fun i s f hfault => ?fault, fun i s r hrefused => ?refused, fun s hwords => ?step⟩
  case fault =>
    rcases exec_next_or_violation i s with ⟨t, hexec⟩ | ⟨n, hi, hneg, hexec⟩
    · cases hexec.symm.trans hfault
    · cases hexec.symm.trans hfault
      exact ⟨rfl, n, hi, hneg⟩
  case refused =>
    rcases exec_next_or_violation i s with ⟨t, hexec⟩ | ⟨n, hi, hneg, hexec⟩
    · cases hexec.symm.trans hrefused
    · cases hexec.symm.trans hrefused
  case step =>
    cases hpending : s.pending with
    | nil => exact ⟨s, step_of_no_pending hpending⟩
    | cons w rest =>
      obtain ⟨i, hdecode⟩ := Option.ne_none_iff_exists'.1 (hwords w rest hpending)
      rw [stepRunsTheDecodedOperation s w rest i hpending hdecode]
      refine exec_completes i _ fun n hi => ?_
      subst hi
      obtain ⟨hwf, -⟩ := encodeOfDecodeIsTheWord _ _ _ hdecode
      simp only [Instr.wf, Bool.and_eq_true, decide_eq_true_eq] at hwf
      exact hwf.1

end Sys2Proof.Machine
end

section
/-! PROOF. The palette round trip (R292): a colour written as two halves reads back as two halves. -/

namespace Sys2Proof.Machine

open Sys2Proof.Spec

/-! ## Halves of a raw colour -/

/-- A raw colour is its high 7 bits beside its low byte (R286). -/
theorem halves_append (c : Color15) : c.extractLsb' 8 7 ++ c.extractLsb' 0 8 = c := BitVec.extractLsb'_append_extractLsb'

/-- The low byte and then the high byte of a colour merged into any old value give the colour (R286). -/
theorem mergeHalf_mergeHalf (old c : Color15) (x : Bool) :
    mergeHalf true (mergeHalf false old (c.extractLsb' 0 8)) (BitVec.ofBool x ++ c.extractLsb' 8 7) = c := by
  obtain ⟨hlow, hhigh⟩ := mergeHalf_high (mergeHalf false old (c.extractLsb' 0 8)) (BitVec.ofBool x ++ c.extractLsb' 8 7)
  rw [(mergeHalf_low old _).1] at hlow
  rw [BitVec.extractLsb'_append_eq_right] at hhigh
  rw [← halves_append (mergeHalf true _ _), hlow, hhigh, halves_append]

/-! ## An even byte address and the one after it -/

theorem palHalf_succ {a : BitVec 6} (h : palHalf a = false) : palHalf (a + 1#6) = true := by
  revert a; decide

theorem palEntry_succ {a : BitVec 6} (h : palHalf a = false) : palEntry (a + 1#6) = palEntry a := by
  revert a; decide

/-! ## The pair through the five writes -/

/-- The pair after the index was written with auto-increment on (R234). -/
def indexed (a : BitVec 6) (p : PalPort) : PalPort := writeIndex (0b10#2 ++ a) p

theorem indexed_index (a : BitVec 6) (p : PalPort) : (indexed a p).index = a := BitVec.extractLsb'_append_eq_right

theorem indexed_autoInc (a : BitVec 6) (p : PalPort) : (indexed a p).autoInc = true := by
  unfold indexed writeIndex
  dsimp only
  rw [BitVec.getLsbD_append]
  rfl

theorem palDataWrite_index_of_autoInc {p : PalPort} (h : p.autoInc = true) (v : Byte) :
    (palDataWrite v p).index = p.index + 1#6 := if_pos h

theorem palDataWrite_autoInc (v : Byte) (p : PalPort) : (palDataWrite v p).autoInc = p.autoInc := rfl

/-- The pair after a colour was written to the entry at an even byte address, low byte first. -/
def colourWritten (a : BitVec 6) (c : Color15) (x : Bool) (p : PalPort) : PalPort :=
  palDataWrite (BitVec.ofBool x ++ c.extractLsb' 8 7) (palDataWrite (c.extractLsb' 0 8) (indexed a p))

section
variable {a : BitVec 6} (heven : palHalf a = false) (c : Color15) (x : Bool) (p : PalPort)

theorem lowWritten_index : (palDataWrite (c.extractLsb' 0 8) (indexed a p)).index = a + 1#6 := by
  rw [palDataWrite_index_of_autoInc (indexed_autoInc a p), indexed_index]

theorem colourWritten_index : (colourWritten a c x p).index = a + 2#6 := by
  rw [colourWritten, palDataWrite_index_of_autoInc ((palDataWrite_autoInc _ _).trans (indexed_autoInc a p)),
    lowWritten_index, BitVec.add_assoc]
  rfl

include heven

/-- The entry holds the colour: both data writes address it, the first its low half, the second its high half (R292). -/
theorem colourWritten_raw : at32 (colourWritten a c x p).raw (palEntry a) = c := by
  rw [colourWritten, palDataWrite_raw, lowWritten_index, palEntry_succ heven, palHalf_succ heven, if_pos rfl,
    palDataWrite_raw, indexed_index, if_pos rfl, heven]
  exact mergeHalf_mergeHalf _ c x

end

/-! ## The answers -/

theorem exec_wrBcps_of_colorMode (v : Byte) {s : State} (h : s.cfg.colorMode = true) :
    exec (.wrBcps v) s = .next { s with bgPal := writeIndex v s.bgPal } :=
  congrArg Host.Outcome.next (colorWrite_of_color h _)

/-- The state after the index of the background pair was set with auto-increment on. -/
def withIndex (a : BitVec 6) (s : State) : State := { s with bgPal := indexed a s.bgPal }

/-- The read with the index set to the even address of an entry: its low byte (R288). -/
theorem exec_rdBcpd_even {s : State} (hcolor : s.cfg.colorMode = true) {a : BitVec 6} (ha : palHalf a = false) :
    exec .rdBcpd (withIndex a s) =
      .next (answerByte ((at32 s.bgPal.raw (palEntry a)).extractLsb' 0 8) (withIndex a s)) := by
  refine congrArg Host.Outcome.next ((colorRead_of_color (s := withIndex a s) hcolor _).trans ?_)
  rw [palDataRead, withIndex, indexed_index, ha]
  rfl

/-- The read with the index set to the odd address of an entry: its high 7 bits under a free bit (R288). -/
theorem exec_rdBcpd_odd {s : State} (hcolor : s.cfg.colorMode = true) {a : BitVec 6} (ha : palHalf a = true) :
    exec .rdBcpd (withIndex a s) =
      .next (answerDraw (fun u => BitVec.ofBool (u.getLsbD 7) ++ (at32 s.bgPal.raw (palEntry a)).extractLsb' 8 7)
        (withIndex a s)) := by
  refine congrArg Host.Outcome.next ((colorRead_of_color (s := withIndex a s) hcolor _).trans ?_)
  rw [palDataRead, withIndex, indexed_index, ha]
  rfl

/-- Settles O22: the entry holds the colour after the writes, and the index set to the even or the odd address of the entry
reads its low or its high half. -/
theorem paletteRoundTrip : Obligations.PaletteRoundTrip := by
  intro s c a x hcolor heven
  let written : State := { s with bgPal := colourWritten a c x s.bgPal }
  let lowRead : State := answerByte ((at32 written.bgPal.raw (palEntry a)).extractLsb' 0 8) (withIndex a written)
  have hcolour : at32 written.bgPal.raw (palEntry a) = c := colourWritten_raw heven c x s.bgPal
  refine ⟨_, _, written, _, lowRead, _, _, _, _,
    exec_wrBcps_of_colorMode _ hcolor, exec_wrBcpd_of_colorMode _ hcolor, exec_wrBcpd_of_colorMode _ hcolor,
    colourWritten_index c x s.bgPal, hcolour,
    exec_wrBcps_of_colorMode _ hcolor, exec_rdBcpd_even (s := written) hcolor heven, rfl,
    exec_wrBcps_of_colorMode _ hcolor, exec_rdBcpd_odd (s := lowRead) hcolor (palHalf_succ heven), rfl, ?halves⟩
  rw [BitVec.extractLsb'_append_eq_right, palEntry_succ heven]
  exact (congrArg (fun raw : Color15 => raw.extractLsb' 8 7 ++ raw.extractLsb' 0 8) hcolour).trans (halves_append c)

end Sys2Proof.Machine
end

section
/-! PROOF. Video memory and the tile cache (R263, R264, R266): the row a written byte belongs to, and the lookup in terms of
the bytes. -/

namespace Sys2Proof.Machine

open Sys2Proof.Spec

/-- A pixel of a decoded row (R126, R260). -/
theorem at8_decodeRow (lo hi : Byte) (c : BitVec 3) : at8 (decodeRow lo hi) c = decodePixel lo hi c.toNat := at8_tabulate _ c

/-- A pixel of the tile cache after a write of video memory (R261, R263). -/
theorem tilePixel_vramWrite (b : Bank) (a : VramOffset) (v : Byte) (s : State) (c k : Bank) (t : Byte) (r col : BitVec 3) :
    tilePixel (vramWrite b a v s) c k t r col =
      let p := tileRowOffset s.cfg.map k t r
      if c = b ∧ (a = p ∨ a = p + 1#13) then
        decodePixel (vramRead (vramWrite b a v s) c p) (vramRead (vramWrite b a v s) c (p + 1#13)) col.toNat
      else tilePixel s c k t r col := by
  rw [tilePixel, tileRow_vramWrite]
  dsimp only
  split
  · exact at8_decodeRow _ _ col
  · rfl

/-- Settles O23: the store, the decoded row and the frame of `VramWrite`. -/
theorem wrVramStoresAndDecodesTheTouchedRow : Obligations.WrVramStoresAndDecodesTheTouchedRow := by
  intro s off v
  refine ⟨_, rfl, ?frame, vramRead_vramWrite _ off v s, fun b k tile r => ⟨fun hlayout => ?place, ?row⟩⟩
  case frame => rw [vramWrite_frame]
  case place => exact tileRowOffset_toNat s.cfg.map hlayout k tile r
  case row => exact tilePixel_vramWrite (busBank s) off v s b k tile r

/-- Where a row of the tile that a map byte names begins, as a number (R266): the signed form is the byte plus 128. -/
theorem tileRowOffset_storedTile (m : AddrMap) (k : Bank) (idx : Byte) (r : BitVec 3) :
    tileRowOffset m k (storedTile k idx) r = BitVec.ofNat 13 (tileStart m (k == 1#1) idx + 2 * r.toNat) := by
  apply BitVec.eq_of_toNat_eq
  rcases bank_cases k with rfl | rfl
  case inl =>
    have hstored : (storedTile 0#1 idx).toNat = (idx.toNat + 128) % 256 := BitVec.toNat_add idx 128#8
    have hstart : tileStart m (0#1 == 1#1) idx = m.tile0Off.toNat + 16 * ((idx.toNat + 128) % 256) := rfl
    rw [tileRowOffset, hstored, hstart, BitVec.toNat_add, BitVec.toNat_ofNat, BitVec.toNat_ofNat,
      show tileOff m 0#1 = m.tile0Off from rfl]
    omega
  case inr =>
    have hstart : tileStart m (1#1 == 1#1) idx = m.tile1Off.toNat + 16 * idx.toNat := rfl
    rw [tileRowOffset, show storedTile 1#1 idx = idx from rfl, hstart, BitVec.toNat_add, BitVec.toNat_ofNat,
      BitVec.toNat_ofNat, show tileOff m 1#1 = m.tile1Off from rfl]
    omega

/-- While the cache is coherent, a pixel of a stored tile is decoded from the bytes where its row lies (R49). -/
theorem tilePixel_of_coherent {s : State} (h : TilesCoherent s) (b k : Bank) (t : Byte) (r c : BitVec 3) {start : Nat}
    (hstart : tileRowOffset s.cfg.map k t r = BitVec.ofNat 13 (start + 2 * r.toNat)) :
    tilePixel s b k t r c = rawOfBytes s b start r.toNat c.toNat := by
  rw [tilePixel, h b k t r, at8_decodeRow, hstart, rawOfBytes, BitVec.ofNat_add (start + 2 * r.toNat) 1]

theorem tileLookup_of_coherent {s : State} (h : TilesCoherent s) (b k : Bank) (idx : Byte) (r c : BitVec 3) :
    tileLookup s b k idx r c = rawOfBytes s b (tileStart s.cfg.map (k == 1#1) idx) r.toNat c.toNat :=
  tilePixel_of_coherent h b k _ r c (tileRowOffset_storedTile s.cfg.map k idx r)

/-- Settles O25: the lookup in a coherent cache, and the starts of the default map. -/
theorem tileLookupIsSignedInBankZero : Obligations.TileLookupIsSignedInBankZero := by
  refine ⟨fun s h => tileLookup_of_coherent h, fun m idx hone hzero => ⟨?direct, ?signed⟩⟩
  case direct =>
    rw [tileStart, if_pos rfl, hone]
    exact Nat.zero_add _
  case signed =>
    have hidx := idx.isLt
    rw [tileStart, if_neg Bool.false_ne_true, hzero, show (0x0800#13 : VramOffset).toNat = 0x800 from rfl]
    split <;> omega

end Sys2Proof.Machine
end

section
/-! PROOF. The control write of the colour-DMA (R352 to R355, R357): the general transfer, the start and the cancellation. -/

namespace Sys2Proof.Machine

open Sys2Proof.Spec

/-! ## What a copy does, in the statements' words -/

/-- `Copied` speaks of the video memory after the copy only. -/
theorem copied_congr {s t u : State} {b : Bank} {src dst n : Nat} (h : Copied s t b src dst n) (hvram : u.vram = t.vram) :
    Copied s u b src dst n := by
  unfold Copied vramRead at *
  rwa [hvram]

/-- The distance of an offset from the start of a copy, for an offset the copy writes. -/
theorem toNat_offset_sub {dst : VramOffset} {j : Nat} (hj : j < 8192) :
    (BitVec.ofNat 13 (dst.toNat + j) - dst).toNat = j := by
  have hdst := dst.isLt
  rw [BitVec.toNat_sub, BitVec.toNat_ofNat]
  omega

/-- A run of at most 8192 bytes copies them to where the destination counts on to (R358). -/
theorem copied_foldl_copyByte (src : BusAddr) (dst : VramOffset) {n : Nat} (hn : n ≤ 8192) (s : State) :
    Copied s ((List.range n).foldl (copyByte src dst) s) s.vbk src.toNat dst.toNat n := by
  obtain ⟨-, -, -, hread⟩ := foldl_copyByte src dst n hn s
  refine ⟨fun j hj => ?written, fun c a hout => ?kept⟩
  case written =>
    rw [hread, toNat_offset_sub (by omega), if_pos ⟨rfl, hj⟩, BitVec.ofNat_add, BitVec.ofNat_toNat, BitVec.setWidth_eq]
  case kept =>
    rw [hread, if_neg]
    rintro ⟨hbank, hlt⟩
    refine hout ⟨hbank, _, hlt, ?_⟩
    rw [BitVec.ofNat_add, BitVec.ofNat_toNat, BitVec.ofNat_toNat, BitVec.setWidth_eq, BitVec.setWidth_eq]
    bv_omega

theorem copied_copyBlocks (src : BusAddr) (dst : VramOffset) {n : Nat} (hn : 16 * n ≤ 8192) (s : State) :
    Copied s (copyBlocks src dst n s) s.vbk src.toNat dst.toNat (16 * n) := by
  rw [copyBlocks_eq]
  exact copied_foldl_copyByte src dst hn s

theorem copied_copyBlock (src : BusAddr) (dst : VramOffset) (s : State) :
    Copied s (copyBlock src dst s) s.vbk src.toNat dst.toNat 16 :=
  copied_foldl_copyByte src dst (n := 16) (by omega) s

/-! ## The fields of a control byte (R136) -/

theorem dmaLen_toNat (v : Byte) : (dmaLen v).toNat = v.toNat % 128 := by
  rw [dmaLen, BitVec.extractLsb'_toNat, Nat.shiftRight_zero]

theorem dmaLen_zeroExtend (v : Byte) : (dmaLen v).zeroExtend 8 = BitVec.ofNat 8 (v.toNat % 128) := by
  apply BitVec.eq_of_toNat_eq
  rw [BitVec.toNat_setWidth, dmaLen_toNat, BitVec.toNat_ofNat]

/-- A count kept under a set bit 7, as a number (R355). -/
theorem or_and_toNat (v : Byte) : 0x80#8 ||| (v &&& 0x7F#8) = BitVec.ofNat 8 (128 + v.toNat % 128) := by
  have happend : 0x80#8 ||| (v &&& 0x7F#8) = 1#1 ++ dmaLen v := by
    ext i hi
    rw [BitVec.getElem_append]
    interval_cases i <;> simp [dmaLen]
  apply BitVec.eq_of_toNat_eq
  rw [happend, toNat_append_add, dmaLen_toNat, BitVec.toNat_ofNat]
  simp
  omega

/-! ## The three meanings of the control write (R352) -/

section
variable {s : State} {v : Byte} (hcolor : s.cfg.colorMode = true)
include hcolor

theorem exec_wrHdma5_start (hlinked : v.getLsbD 7 = true) : exec (.wrHdma5 v) s = .next (startHdma (dmaLen v) s) :=
  congrArg Host.Outcome.next ((colorWrite_of_color hcolor _).trans (if_pos hlinked))

theorem exec_wrHdma5_cancel (hlinked : v.getLsbD 7 = false) (hactive : s.hdmaActive = true) :
    exec (.wrHdma5 v) s = .next (cancelHdma s) :=
  congrArg Host.Outcome.next ((colorWrite_of_color hcolor _).trans
    ((if_neg (ne_true_of_eq_false hlinked)).trans (if_pos hactive)))

theorem exec_wrHdma5_general (hlinked : v.getLsbD 7 = false) (hactive : s.hdmaActive = false) :
    exec (.wrHdma5 v) s = .next (generalTransfer ((dmaLen v).toNat + 1) s) :=
  congrArg Host.Outcome.next ((colorWrite_of_color hcolor _).trans
    ((if_neg (ne_true_of_eq_false hlinked)).trans (if_neg (ne_true_of_eq_false hactive))))

end

/-- Settles O28: the blocks of a general transfer are one run of bytes from the masked addresses. -/
theorem generalTransferCopiesAllBlocks : Obligations.GeneralTransferCopiesAllBlocks := by
  intro s v hcolor hactive hlinked
  refine ⟨_, exec_wrHdma5_general hcolor hlinked hactive, ?frame, ?copied⟩
  case frame =>
    rw [generalTransfer, copyBlocks_frame, dmaLen_toNat]
  case copied =>
    have hlen := v.isLt
    rw [dmaLen_toNat]
    have hcopied := copied_copyBlocks (dmaSrc s) (dmaDst s) (n := v.toNat % 128 + 1) (by omega) s
    rw [dmaSrc_toNat, dmaDst_toNat] at hcopied
    exact copied_congr hcopied rfl

/-- Settles O29: the start latches the masked addresses and the count. -/
theorem linkedTransferStartsWithoutCopying : Obligations.LinkedTransferStartsWithoutCopying := by
  intro s v hcolor hlinked
  have hsrc : dmaSrc s = BitVec.ofNat 16 (dmaSource s) := by
    rw [dmaSource, ← dmaSrc_toNat, BitVec.ofNat_toNat, BitVec.setWidth_eq]
  have hdst : dmaDst s = BitVec.ofNat 13 (dmaDest s) := by
    rw [dmaDest, ← dmaDst_toNat, BitVec.ofNat_toNat, BitVec.setWidth_eq]
  rw [exec_wrHdma5_start hcolor hlinked, startHdma, hsrc, hdst, dmaLen_zeroExtend]

/-- Settles O30: the cancellation keeps the count under a set bit 7. -/
theorem clearBitCancelsTheLinkedTransfer : Obligations.ClearBitCancelsTheLinkedTransfer := by
  intro s v hcolor hactive hlinked
  rw [exec_wrHdma5_cancel hcolor hlinked hactive, cancelHdma, or_and_toNat]

end Sys2Proof.Machine
end

section
/-! PROOF. What one tick and one sampling of the display request can do (R160 to R172): a named outcome and its condition for
each case. -/

namespace Sys2Proof.Machine

open Sys2Proof.Spec

/-! ## The outcomes of a tick -/

/-- HBlank entered: the row, the block of a pending transfer, the request if enabled (R166). -/
def hblankEntered (s : State) : State :=
  { hblankDma (renderLine s.ly { s with mode := .hblank, lineCycle := 252 }) with
    ifStat := s.ifStat || s.stat.hblankIe
    trace := s.trace ++ (if s.stat.hblankIe then [.raise .stat] else []) }

/-- A visible scanline started: the index and its comparison, then OAM-search with its request (R170, R172). -/
def lineStarted (ly : Byte) (s : State) : State :=
  let u := compared s ly s.lyc
  { u with
    lineCycle := 0, mode := .oam, ifStat := u.ifStat || s.stat.oamIe
    trace := u.trace ++ (if s.stat.oamIe then [.raise .stat] else []) }

/-- VBlank entered: the comparison, the VBLANK request, the STAT request if enabled, the frame (R167, R170). -/
def vblankEntered (s : State) : State :=
  let u := compared s 144#8 s.lyc
  { u with
    lineCycle := 0, mode := .vblank, ifVblank := true, ifStat := u.ifStat || s.stat.vblankIe
    trace := u.trace ++ [.raise .vblank] ++ (if s.stat.vblankIe then [.raise .stat] else []) ++ [.present s.frame] }

/-- A further vertical-blank scanline started: the index and its comparison (R171). -/
def vblankLineStarted (s : State) : State := { compared s (s.ly + 1#8) s.lyc with lineCycle := 0 }

/-- The outcomes of one tick, each under its condition (R161, R168). -/
inductive TickTo (s : State) : State → Prop
  | interior (hin : boundaryTick s.mode s.lineCycle = false) : TickTo s { s with lineCycle := s.lineCycle + 1 }
  | enterXfer (hm : s.mode = .oam) (hc : s.lineCycle = 79) : TickTo s { s with lineCycle := 80, mode := .xfer }
  | enterHblank (hm : s.mode = .xfer) (hc : s.lineCycle = 251) : TickTo s (hblankEntered s)
  | nextLine (hm : s.mode = .hblank) (hc : s.lineCycle = 455) (hly : s.ly + 1#8 ≠ 144#8) :
      TickTo s (lineStarted (s.ly + 1#8) s)
  | enterVblank (hm : s.mode = .hblank) (hc : s.lineCycle = 455) (hly : s.ly + 1#8 = 144#8) : TickTo s (vblankEntered s)
  | nextVblankLine (hm : s.mode = .vblank) (hc : s.lineCycle = 455) (hly : s.ly + 1#8 ≠ 154#8) :
      TickTo s (vblankLineStarted s)
  | nextFrame (hm : s.mode = .vblank) (hc : s.lineCycle = 455) (hly : s.ly + 1#8 = 154#8) :
      TickTo s (lineStarted 0x00#8 s)

theorem mode_cases (m : Mode) : m = .oam ∨ m = .xfer ∨ m = .hblank ∨ m = .vblank := by
  cases m <;> decide

/-- A tick that ends no mode and no scanline counts and does nothing else (R161). -/
theorem tick_interior {s : State} (h : boundaryTick s.mode s.lineCycle = false) :
    tick s = { s with lineCycle := s.lineCycle + 1 } := by
  rcases mode_cases s.mode with hm | hm | hm | hm <;> rw [hm] at h
  · exact (tick_oam s hm).trans (if_neg (ne_of_beq_false h))
  · exact (tick_xfer s hm).trans (if_neg (ne_of_beq_false h))
  · exact (tick_hblank s hm).trans (if_neg (ne_of_beq_false h))
  · exact (tick_vblank s hm).trans (if_neg (ne_of_beq_false h))

section
variable {s : State}

theorem tick_nextLine (hm : s.mode = .hblank) (hc : s.lineCycle = 455) (hly : s.ly + 1#8 ≠ 144#8) :
    tick s = lineStarted (s.ly + 1#8) s := by
  rw [tick_hblank s hm, if_pos (by rw [hc]), lineWrapVisible_eq, if_neg hly, enterOam_frame, lycCompare_frame]
  rfl

theorem tick_enterVblank (hm : s.mode = .hblank) (hc : s.lineCycle = 455) (hly : s.ly + 1#8 = 144#8) :
    tick s = vblankEntered s := by
  rw [tick_hblank s hm, if_pos (by rw [hc]), lineWrapVisible_eq, if_pos hly, enterVblank_frame, lycCompare_frame,
    vblankEntered, ← hly]
  rfl

theorem tick_nextVblankLine (hm : s.mode = .vblank) (hc : s.lineCycle = 455) (hly : s.ly + 1#8 ≠ 154#8) :
    tick s = vblankLineStarted s := by
  rw [tick_vblank s hm, if_pos (by rw [hc]), lineWrapVblank_eq, if_neg hly, lycCompare_frame]
  rfl

theorem tick_nextFrame (hm : s.mode = .vblank) (hc : s.lineCycle = 455) (hly : s.ly + 1#8 = 154#8) :
    tick s = lineStarted 0x00#8 s := by
  rw [tick_vblank s hm, if_pos (by rw [hc]), lineWrapVblank_eq, if_pos hly, enterOam_frame, lycCompare_frame]
  rfl

end

/-- A tick has one of the named outcomes, under its condition. -/
theorem tickTo_tick (s : State) : TickTo s (tick s) := by
  cases hb : boundaryTick s.mode s.lineCycle with
  | false => rw [tick_interior hb]; exact .interior hb
  | true =>
    cases hm : s.mode with
    | oam =>
      have hc : s.lineCycle = 79 := by rw [hm] at hb; exact Nat.succ.inj (eq_of_beq hb)
      rw [tick_enterXfer s hm hc]; exact .enterXfer hm hc
    | xfer =>
      have hc : s.lineCycle = 251 := by rw [hm] at hb; exact Nat.succ.inj (eq_of_beq hb)
      rw [tick_enterHblank s hm hc]; exact .enterHblank hm hc
    | hblank =>
      have hc : s.lineCycle = 455 := by rw [hm] at hb; exact Nat.succ.inj (eq_of_beq hb)
      by_cases hly : s.ly + 1#8 = 144#8
      · rw [tick_enterVblank hm hc hly]; exact .enterVblank hm hc hly
      · rw [tick_nextLine hm hc hly]; exact .nextLine hm hc hly
    | vblank =>
      have hc : s.lineCycle = 455 := by rw [hm] at hb; exact Nat.succ.inj (eq_of_beq hb)
      by_cases hly : s.ly + 1#8 = 154#8
      · rw [tick_nextFrame hm hc hly]; exact .nextFrame hm hc hly
      · rw [tick_nextVblankLine hm hc hly]; exact .nextVblankLine hm hc hly

/-! ## The outcomes of a sampling -/

/-- The display enabled: the first cycle of OAM-search with its request (R163). -/
def displayEnabled (s : State) : State :=
  { s with
    displayOn := true, lineCycle := 0, mode := .oam, ifStat := s.ifStat || s.stat.oamIe
    trace := s.trace ++ (if s.stat.oamIe then [.raise .stat] else []) }

/-- The display disabled: index 0 with its comparison, idle HBlank (R162). -/
def displayDisabled (s : State) : State :=
  { compared s 0x00#8 s.lyc with displayOn := false, mode := .hblank, lineCycle := 0 }

/-- The outcomes of the sampling of the display request, each under its condition (R160). -/
inductive SampleTo (s : State) : State → Prop
  | enable (hd : s.displayOn = false) (hreq : s.lcdc.getLsbD 7 = true) : SampleTo s (displayEnabled s)
  | disable (hd : s.displayOn = true) (hm : s.mode = .vblank) (hreq : s.lcdc.getLsbD 7 = false) :
      SampleTo s (displayDisabled s)
  | idle (hd : s.displayOn = false) (hreq : s.lcdc.getLsbD 7 = false) : SampleTo s s
  | run (hd : s.displayOn = true) (hrun : s.lcdc.getLsbD 7 = true ∨ s.mode ≠ .vblank) : SampleTo s s

section
variable {s : State}

theorem sampleDisplay_enable (hd : s.displayOn = false) (hreq : s.lcdc.getLsbD 7 = true) :
    sampleDisplay s = displayEnabled s := by
  rw [sampleDisplay, lcdEn, hreq, hd]
  exact enterOam_frame _

theorem sampleDisplay_disable (hd : s.displayOn = true) (hm : s.mode = .vblank) (hreq : s.lcdc.getLsbD 7 = false) :
    sampleDisplay s = displayDisabled s := by
  rw [sampleDisplay, lcdEn, hreq, hd, hm]
  exact congrArg (fun u : State => { u with mode := .hblank, lineCycle := 0 }) (lycCompare_frame _)

theorem sampleDisplay_idle (hd : s.displayOn = false) (hreq : s.lcdc.getLsbD 7 = false) : sampleDisplay s = s := by
  rw [sampleDisplay, lcdEn, hreq, hd]
  rfl

end

/-- A sampling has one of the named outcomes, under its condition. -/
theorem sampleTo_sampleDisplay (s : State) : SampleTo s (sampleDisplay s) := by
  cases hd : s.displayOn with
  | false =>
    cases hreq : s.lcdc.getLsbD 7 with
    | false => rw [sampleDisplay_idle hd hreq]; exact .idle hd hreq
    | true => rw [sampleDisplay_enable hd hreq]; exact .enable hd hreq
  | true =>
    by_cases hrun : s.lcdc.getLsbD 7 = true ∨ s.mode ≠ .vblank
    · rw [sampleDisplay_on s hd hrun]; exact .run hd hrun
    · obtain ⟨hreq, hm⟩ := not_or.1 hrun
      rw [Bool.not_eq_true] at hreq
      rw [not_ne_iff] at hm
      rw [sampleDisplay_disable hd hm hreq]; exact .disable hd hm hreq

theorem runTicks_off (n : Nat) {s : State} (h : s.displayOn = false) : runTicks n s = s :=
  if_neg (ne_true_of_eq_false h)

theorem runTicks_on (n : Nat) {s : State} (h : s.displayOn = true) : runTicks n s = ticks n s := if_pos h

theorem runTicks_zero (s : State) : runTicks 0 s = s := by
  cases h : s.displayOn with
  | false => exact runTicks_off 0 h
  | true => exact runTicks_on 0 h

/-! ## The outcomes of a `STEP 1` -/

/-- The outcomes of a `STEP 1`: the sampling with the tick that follows it while the display is on (R160). -/
inductive StepOneTo (s : State) : State → Prop
  | enable (hd : s.displayOn = false) (hreq : s.lcdc.getLsbD 7 = true) : StepOneTo s { displayEnabled s with lineCycle := 1 }
  | disable (hd : s.displayOn = true) (hm : s.mode = .vblank) (hreq : s.lcdc.getLsbD 7 = false) :
      StepOneTo s (displayDisabled s)
  | idle (hd : s.displayOn = false) (hreq : s.lcdc.getLsbD 7 = false) : StepOneTo s s
  | run {t : State} (hd : s.displayOn = true) (hrun : s.lcdc.getLsbD 7 = true ∨ s.mode ≠ .vblank) (ht : TickTo s t) :
      StepOneTo s t

theorem exec_step_one_to (s : State) : ∃ t, exec (.step 1) s = .next t ∧ StepOneTo s t := by
  refine ⟨_, exec_step_nat 1 s, ?_⟩
  generalize hu : sampleDisplay s = u
  have hsample : SampleTo s u := hu ▸ sampleTo_sampleDisplay s
  cases hsample with
  | enable hd hreq =>
    rw [runTicks_on 1 (s := displayEnabled s) rfl, ticks_one, tick_interior (s := displayEnabled s) rfl]
    exact .enable hd hreq
  | disable hd hm hreq =>
    rw [runTicks_off 1 (s := displayDisabled s) rfl]
    exact .disable hd hm hreq
  | idle hd hreq =>
    rw [runTicks_off 1 hd]
    exact .idle hd hreq
  | run hd hrun =>
    rw [runTicks_on 1 hd, ticks_one]
    exact .run hd hrun (tickTo_tick s)

end Sys2Proof.Machine
end

section
/-! PROOF. One `STEP` (R160 to R176): the enabling and disabling of the display, and what a `STEP 1` does at each place of
the timing table. -/

namespace Sys2Proof.Machine

open Sys2Proof.Spec

/-! ## The display request -/

/-- Settles O40: the sampling changes nothing and no tick is applied. -/
theorem stepWithDisplayOffDoesNothing : Obligations.StepWithDisplayOffDoesNothing := by
  intro s n hd hreq
  rw [exec_step_nat, sampleDisplay_idle hd hreq, runTicks_off n hd]

/-- Settles O41: the sampling alone. -/
theorem enableResumesAtOamSearch : Obligations.EnableResumesAtOamSearch := by
  intro s hd hreq
  have hstep := exec_step_nat 0 s
  rwa [sampleDisplay_enable hd hreq, runTicks_zero] at hstep

/-- Settles O42: after the sampling the display is off, so no tick is applied. -/
theorem disableIsHonouredInVblank : Obligations.DisableIsHonouredInVblank := by
  intro s n hd hm hreq
  rw [exec_step_nat, sampleDisplay_disable hd hm hreq]
  exact congrArg Host.Outcome.next (runTicks_off n rfl)

/-- Settles O39: neither the sampling nor a tick writes any other register. -/
theorem stepCompletesAndLeavesTheRegisters : Obligations.StepCompletesAndLeavesTheRegisters := fun s n =>
  ⟨_, exec_step_nat n s, ((sameSettings_sampleDisplay s).trans (sameSettings_runTicks n _)).eq⟩

/-! ## The transition table -/

/-- Inside a mode the table counts (R168). -/
theorem nextPosition_interior {m : Mode} {c : Nat} (h : boundaryTick m c = false) (ly : Byte) :
    nextPosition m c ly = (m, c + 1, ly) := by
  cases m with
  | oam | xfer => simp only [nextPosition, if_neg (ne_of_beq_false h)]
  | hblank | vblank => exact if_neg (ne_of_beq_false h)

theorem hblankEntered_position (s : State) :
    ((hblankEntered s).mode, (hblankEntered s).lineCycle, (hblankEntered s).ly) = (.hblank, 252, s.ly) := by
  simp only [hblankEntered, hblankDma_keeps, renderLine_keeps]

/-- A tick moves the position as the table says (R168). -/
theorem tick_position (s : State) :
    ((tick s).mode, (tick s).lineCycle, (tick s).ly) = nextPosition s.mode s.lineCycle s.ly := by
  generalize ht : tick s = t
  cases (ht ▸ tickTo_tick s : TickTo s t) with
  | interior hin => rw [nextPosition_interior hin]
  | enterXfer hm hc => rw [hm, hc]; rfl
  | enterHblank hm hc => rw [hm, hc, hblankEntered_position]; rfl
  | nextLine hm hc hly => rw [hm, hc, nextPosition, if_pos rfl, if_neg hly]; rfl
  | enterVblank hm hc hly => rw [hm, hc, nextPosition, if_pos rfl, if_pos hly, hly]; rfl
  | nextVblankLine hm hc hly => rw [hm, hc, nextPosition, if_pos rfl, if_neg hly, ← hm]; rfl
  | nextFrame hm hc hly => rw [hm, hc, nextPosition, if_pos rfl, if_pos hly]; rfl

/-- Settles O43: the `STEP 1` is one tick. -/
theorem tickFollowsTheTransitionTable : Obligations.TickFollowsTheTransitionTable := fun s hd hrun =>
  ⟨_, exec_step_one s hd hrun, (tick_displayOn s).trans hd, tick_position s⟩

/-- Settles O44: the `STEP 1` is an interior tick. -/
theorem interiorTicksOnlyCount : Obligations.InteriorTicksOnlyCount := by
  intro s hd hrun hin
  rw [exec_step_one s hd hrun, tick_interior hin]

/-! ## The ends of the scanlines -/

/-- Settles O46: the `STEP 1` is the tick that starts the next visible scanline. -/
theorem visibleLineWrapEntersOamSearch : Obligations.VisibleLineWrapEntersOamSearch := by
  intro s hd hm hc hly
  rw [exec_step_one s hd (.inr (by simp [hm])), tick_nextLine hm hc hly]
  rfl

/-- Settles O47: the `STEP 1` is the tick that enters VBlank. -/
theorem vblankEntryRaisesAndPresents : Obligations.VblankEntryRaisesAndPresents := by
  intro s hd hm hc hly
  rw [exec_step_one s hd (.inr (by simp [hm])), tick_enterVblank hm hc (by rw [hly]; rfl)]
  rfl

/-- Settles O49: the `STEP 1` is the tick that starts a further vertical-blank scanline or the next frame. -/
theorem vblankLinesCountToTheFrameWrap : Obligations.VblankLinesCountToTheFrameWrap := by
  intro s hd hreq hm hc
  refine ⟨fun hly => ?line, fun hly => ?frame⟩
  case line => rw [exec_step_one s hd (.inl hreq), tick_nextVblankLine hm hc hly]; rfl
  case frame => rw [exec_step_one s hd (.inl hreq), tick_nextFrame hm hc hly]; rfl

/-! ## HBlank entry -/

theorem exec_step_one_hblank {s : State} (h : AtHblankEntry s) : exec (.step 1) s = .next (hblankEntered s) := by
  obtain ⟨hd, hm, hc⟩ := h
  rw [exec_step_one s hd (.inr (by simp [hm])), tick_enterHblank s hm hc]
  rfl

/-- With no transfer to serve the block of an HBlank entry does nothing (R166). -/
theorem hblankDma_idle {s : State} (h : s.cfg.colorMode = false ∨ s.hdmaActive = false) : hblankDma s = s := by
  refine if_neg ?_
  rcases h with h | h <;> simp [h]

/-- With a transfer to serve it is one block (R166, R356). -/
theorem hblankDma_active {s : State} (hcolor : s.cfg.colorMode = true) (hactive : s.hdmaActive = true) :
    hblankDma s = hdmaBlock s := if_pos (by simp [hcolor, hactive])

/-- Settles O50: the entry's request is its only event, and without a transfer only the compositor writes beside it. -/
theorem hblankEntryRaisesOnceIfEnabled : Obligations.HblankEntryRaisesOnceIfEnabled := by
  intro s h
  refine ⟨_, exec_step_one_hblank h, ?mode, ?cycle, ?ly, ?stat, ?vblank, rfl, rfl, fun hidle => ?frame⟩
  case mode | cycle | ly | stat | vblank => simp only [hblankEntered, hblankDma_keeps, renderLine_keeps]
  case frame =>
    have hnone : hblankDma (renderLine s.ly { s with mode := .hblank, lineCycle := 252 }) =
        renderLine s.ly { s with mode := .hblank, lineCycle := 252 } :=
      hblankDma_idle (by simpa only [renderLine_keeps] using hidle)
    rw [hblankEntered, hnone, renderLine_frame]

/-- Settles O34: the row committed is the colour line buffer, and the block of a transfer writes neither. -/
theorem hblankEntryWritesOneRow : Obligations.HblankEntryWritesOneRow := by
  intro s h
  refine ⟨_, exec_step_one_hblank h, fun y => ?_⟩
  simp only [hblankEntered, hblankDma_keeps]
  exact frame_renderLine s.ly { s with mode := .hblank, lineCycle := 252 } y.val y.isLt

/-- What is copied depends on video memory and on the external memory's answers before the copy. -/
theorem copied_congr_source {s u t : State} {b : Bank} {src dst n : Nat} (h : Copied u t b src dst n)
    (hvram : u.vram = s.vram) (hreads : u.memReads = s.memReads) (hext : u.extMem = s.extMem) : Copied s t b src dst n := by
  unfold Copied vramRead memAnswer at *
  rwa [hvram, hreads, hext] at h

/-- The count of a control byte less one, as a byte (R356). -/
theorem dmaLen_pred_zeroExtend {v : Byte} (h : v.toNat % 128 ≠ 0) :
    (dmaLen v - 1#7).zeroExtend 8 = BitVec.ofNat 8 (v.toNat % 128 - 1) := by
  apply BitVec.eq_of_toNat_eq
  rw [BitVec.toNat_setWidth, BitVec.toNat_sub, dmaLen_toNat, BitVec.toNat_ofNat, BitVec.toNat_ofNat]
  omega

theorem dmaLen_eq_zero_iff (v : Byte) : dmaLen v = 0#7 ↔ v.toNat % 128 = 0 := by
  rw [← dmaLen_toNat, ← BitVec.toNat_inj]
  rfl

/-- Settles O31: the compositor leaves what the block reads, and the block copies from the latched pointers. -/
theorem hblankEntryCopiesOneBlock : Obligations.HblankEntryCopiesOneBlock := by
  intro s hcolor hactive h
  refine ⟨_, exec_step_one_hblank h, ?_⟩
  have hblock : hblankDma (renderLine s.ly { s with mode := .hblank, lineCycle := 252 }) =
      hdmaBlock (renderLine s.ly { s with mode := .hblank, lineCycle := 252 }) :=
    hblankDma_active (by simpa only [renderLine_keeps] using hcolor) (by simpa only [renderLine_keeps] using hactive)
  simp only [hblankEntered, hblock, hdmaBlock_frame, renderLine_keeps, true_and]
  refine ⟨?copied, fun hlast => ?last, fun hmore => ?more⟩
  case copied =>
    have hcopied := copied_copyBlock s.hdmaSrc s.hdmaDst (renderLine s.ly { s with mode := .hblank, lineCycle := 252 })
    simp only [renderLine_keeps] at hcopied
    exact copied_congr (copied_congr_source hcopied (by simp only [renderLine_keeps]) (by simp only [renderLine_keeps])
      (by simp only [renderLine_keeps])) rfl
  case last =>
    rw [if_pos ((dmaLen_eq_zero_iff _).2 hlast), if_pos ((dmaLen_eq_zero_iff _).2 hlast)]
    exact ⟨rfl, rfl⟩
  case more =>
    rw [if_neg (mt (dmaLen_eq_zero_iff _).1 hmore), if_neg (mt (dmaLen_eq_zero_iff _).1 hmore), dmaLen_pred_zeroExtend hmore]
    exact ⟨rfl, hactive⟩

/-- Settles O32: of the outcomes of a `STEP 1` only the HBlank entry writes any of it. -/
theorem onlyHblankEntryCopiesOrComposites : Obligations.OnlyHblankEntryCopiesOrComposites := by
  intro s hnot
  obtain ⟨t, hexec, hto⟩ := exec_step_one_to s
  refine ⟨t, hexec, ?_⟩
  cases hto with
  | enable | disable | idle => exact ⟨rfl, rfl, rfl, rfl, rfl, rfl, rfl, rfl, rfl, rfl, rfl⟩
  | run hd _ ht =>
    cases ht with
    | enterHblank hm hc => exact absurd ⟨hd, hm, hc⟩ hnot
    | interior | enterXfer | nextLine | enterVblank | nextVblankLine | nextFrame =>
      exact ⟨rfl, rfl, rfl, rfl, rfl, rfl, rfl, rfl, rfl, rfl, rfl⟩

/-! ## What the output records -/

@[simp] theorem presents_append (l r : List Event) : presents (l ++ r) = presents l + presents r := List.countP_append

@[simp] theorem raises_append (k : Irq) (l r : List Event) : raises k (l ++ r) = raises k l + raises k r :=
  List.countP_append

@[simp] theorem presents_statIf (b : Bool) : presents (if b then [.raise .stat] else []) = 0 := by cases b <;> rfl

@[simp] theorem raises_vblank_statIf (b : Bool) : raises .vblank (if b then [.raise .stat] else []) = 0 := by cases b <;> rfl

@[simp] theorem raises_stat_statIf (b : Bool) : raises .stat (if b then [.raise .stat] else []) = b.toNat := by
  cases b <;> rfl

@[simp] theorem presents_raise (k : Irq) : presents [.raise k] = 0 := rfl
@[simp] theorem presents_present (f : Frame) : presents [.present f] = 1 := rfl
@[simp] theorem raises_vblank_vblank : raises .vblank [.raise .vblank] = 1 := rfl
@[simp] theorem raises_stat_vblank : raises .stat [.raise .vblank] = 0 := rfl
@[simp] theorem raises_present (k : Irq) (f : Frame) : raises k [.present f] = 0 := rfl

/-- Settles O48: the other outcomes of a `STEP 1` add at most STAT requests. -/
theorem frameAndVblankRequestOnlyAtVblankEntry : Obligations.FrameAndVblankRequestOnlyAtVblankEntry := by
  intro s hnot
  obtain ⟨t, hexec, hto⟩ := exec_step_one_to s
  refine ⟨t, hexec, ?_⟩
  cases hto with
  | enable => simp [displayEnabled]
  | disable => simp [displayDisabled, compared]
  | idle => exact ⟨rfl, rfl, rfl⟩
  | run hd _ ht =>
    cases ht with
    | enterVblank hm hc hly => exact absurd ⟨hd, hm, hc, by bv_omega⟩ hnot
    | enterHblank => simp [hblankEntered]
    | nextLine | nextFrame => simp [lineStarted, compared]
    | nextVblankLine => simp [vblankLineStarted, compared]
    | interior | enterXfer => exact ⟨rfl, rfl, rfl⟩

/-! ## The output only grows -/

/-- A set pending flag stays set, and the output has the old output as a beginning (R374, R375). -/
structure Grows (s t : State) : Prop where
  ifVblank : s.ifVblank = true → t.ifVblank = true
  ifStat   : s.ifStat = true → t.ifStat = true
  trace    : ∃ new, t.trace = s.trace ++ new

theorem Grows.trans {s t u : State} (h : Grows s t) (k : Grows t u) : Grows s u := by
  refine ⟨k.ifVblank ∘ h.ifVblank, k.ifStat ∘ h.ifStat, ?_⟩
  obtain ⟨new, hnew⟩ := h.trace
  obtain ⟨newer, hnewer⟩ := k.trace
  exact ⟨new ++ newer, by rw [hnewer, hnew, List.append_assoc]⟩

/-- The output left as it is. -/
theorem grows_of_eq {s t : State} (hv : t.ifVblank = s.ifVblank) (hs : t.ifStat = s.ifStat) (ht : t.trace = s.trace) :
    Grows s t :=
  ⟨hv.trans, hs.trans, [], by rw [ht, List.append_nil]⟩

/-- STAT requests raised. -/
theorem grows_of_stat {s t : State} {b : Bool} {new : List Event} (hv : t.ifVblank = s.ifVblank)
    (hs : t.ifStat = (s.ifStat || b)) (ht : t.trace = s.trace ++ new) : Grows s t :=
  ⟨hv.trans, fun h => by rw [hs, h]; rfl, new, ht⟩

theorem grows_compared (s : State) (ly lyc : Byte) : Grows s (compared s ly lyc) := grows_of_stat rfl rfl rfl

theorem grows_tick (s : State) : Grows s (tick s) := by
  generalize ht : tick s = t
  cases (ht ▸ tickTo_tick s : TickTo s t) with
  | interior | enterXfer => exact grows_of_eq rfl rfl rfl
  | enterHblank => exact grows_of_stat (by simp only [hblankEntered, hblankDma_keeps, renderLine_keeps]) rfl rfl
  | nextLine => exact (grows_compared s _ s.lyc).trans (grows_of_stat rfl rfl rfl)
  | nextFrame => exact (grows_compared s _ s.lyc).trans (grows_of_stat rfl rfl rfl)
  | nextVblankLine => exact (grows_compared s _ s.lyc).trans (grows_of_eq rfl rfl rfl)
  | enterVblank =>
    refine (grows_compared s 144#8 s.lyc).trans ⟨fun _ => rfl, fun h => Bool.or_eq_true_iff.2 (.inl h), ?_⟩
    simp only [vblankEntered, List.append_assoc]
    exact ⟨_, rfl⟩

theorem grows_ticks (n : Nat) (s : State) : Grows s (ticks n s) := by
  induction n generalizing s with
  | zero => exact grows_of_eq rfl rfl rfl
  | succ n ih => exact (grows_tick s).trans (ih (tick s))

theorem grows_sampleDisplay (s : State) : Grows s (sampleDisplay s) := by
  generalize hu : sampleDisplay s = u
  cases (hu ▸ sampleTo_sampleDisplay s : SampleTo s u) with
  | enable => exact grows_of_stat rfl rfl rfl
  | disable => exact (grows_compared s 0x00#8 s.lyc).trans (grows_of_eq rfl rfl rfl)
  | idle | run => exact grows_of_eq rfl rfl rfl

theorem grows_runTicks (n : Nat) (s : State) : Grows s (runTicks n s) := by
  cases hd : s.displayOn with
  | false => rw [runTicks_off n hd]; exact grows_of_eq rfl rfl rfl
  | true => rw [runTicks_on n hd]; exact grows_ticks n s

/-- What a `STEP` answers when it answers a next state: its count is from 0 up, and it is the sampling and the ticks. -/
theorem exec_step_next {n : Int} {s t : State} (h : exec (.step n) s = .next t) :
    t = runTicks n.toNat (sampleDisplay s) := by
  by_cases hneg : n < 0
  · rw [negativeStepIsTheContractViolation s n hneg] at h
    cases h
  · exact (Host.Outcome.next.inj ((if_neg hneg).symm.trans h)).symm

/-- An operation that raises nothing leaves the flags and the output (R377, R410). -/
theorem exec_keeps_output {i : Instr} {s t : State} (hexec : exec i s = .next t) (hraise : mayRaise i = false) :
    t.ifVblank = s.ifVblank ∧ t.ifStat = s.ifStat ∧ t.trace = s.trace := by
  by_cases hreset : i = .reset
  · subst hreset
    cases hexec
    exact ⟨rfl, rfl, rfl⟩
  · obtain ⟨u, hexec', hquiet⟩ := exec_quiet hreset hraise s
    cases hexec'.symm.trans hexec
    exact ⟨hquiet.ifVblank, hquiet.ifStat, hquiet.trace⟩

/-- Whatever answers a next state only adds to the output (R374, R375). -/
theorem exec_grows {i : Instr} {s t : State} (hexec : exec i s = .next t) : Grows s t := by
  cases hraise : mayRaise i with
  | false =>
    obtain ⟨hvblank, hstat, htrace⟩ := exec_keeps_output hexec hraise
    exact grows_of_eq hvblank hstat htrace
  | true =>
    rcases mayRaise_cases hraise with ⟨n, rfl⟩ | ⟨v, rfl⟩ | ⟨v, rfl⟩
    · rw [exec_step_next hexec]
      exact (grows_sampleDisplay s).trans (grows_runTicks _ _)
    · cases (wrLyClearsTheIndexAndCompares s v).symm.trans hexec
      exact grows_compared s _ _
    · cases (wrLycStoresAndCompares s v).symm.trans hexec
      exact grows_compared s _ _

/-- Settles O57: what every operation adds, and what one that raises nothing leaves. -/
theorem requestsAreOnlyEverSet : Obligations.RequestsAreOnlyEverSet := fun _ _ _ hexec =>
  have hgrows := exec_grows hexec
  ⟨hgrows.ifVblank, hgrows.ifStat, hgrows.trace, exec_keeps_output hexec⟩

/-! ## The parameters -/

/-- Whatever answers a next state leaves the parameters (R8, R410). -/
theorem exec_cfg {i : Instr} {s t : State} (hexec : exec i s = .next t) : t.cfg = s.cfg := by
  by_cases hreset : i = .reset
  · subst hreset
    cases hexec
    rfl
  cases hraise : mayRaise i with
  | false =>
    obtain ⟨u, hexec', hquiet⟩ := exec_quiet hreset hraise s
    cases hexec'.symm.trans hexec
    exact hquiet.cfg
  | true =>
    rcases mayRaise_cases hraise with ⟨n, rfl⟩ | ⟨v, rfl⟩ | ⟨v, rfl⟩
    · have hkept := (sameSettings_sampleDisplay s).trans (sameSettings_runTicks n.toNat _)
      rw [exec_step_next hexec, hkept.eq]
    · cases (wrLyClearsTheIndexAndCompares s v).symm.trans hexec
      rfl
    · cases (wrLycStoresAndCompares s v).symm.trans hexec
      rfl

/-- A step that answers a next state found no word, or ran the operation of the word it found (R140). -/
theorem step_next_cases {s t : State} (h : step s = .next t) :
    t = s ∨ ∃ (i : Instr) (rest : List TraceWord), exec i { s with pending := rest } = .next t := by
  cases hpending : s.pending with
  | nil => exact .inl (Host.Outcome.next.inj ((step_of_no_pending hpending).symm.trans h)).symm
  | cons w rest =>
    rw [step_of_pending hpending] at h
    cases hdecode : decode s.cfg.map w with
    | none => rw [hdecode] at h; cases h
    | some i => rw [hdecode] at h; exact .inr ⟨i, rest, h⟩

/-- Settles O58: a step changes nothing or is an operation. -/
theorem parametersNeverChange : Obligations.ParametersNeverChange := by
  intro s t h
  rcases step_next_cases h with rfl | ⟨i, rest, hexec⟩
  · rfl
  · exact exec_cfg (s := { s with pending := rest }) hexec

end Sys2Proof.Machine
end

section
/-! PROOF. Runs of ticks (R177 to R179): two `STEP`s are one, the position after any number of ticks, and the requests and
frames of one whole frame. -/

namespace Sys2Proof.Machine

open Sys2Proof.Spec

/-! ## Two `STEP`s are one -/

/-- A display that is off after a sampling is not requested (R160). -/
theorem sampleDisplay_off {s : State} (h : (sampleDisplay s).displayOn = false) :
    (sampleDisplay s).lcdc.getLsbD 7 = false := by
  generalize hu : sampleDisplay s = u at h ⊢
  cases (hu ▸ sampleTo_sampleDisplay s : SampleTo s u) with
  | enable => cases h
  | disable hd hm hreq => exact hreq
  | idle hd hreq => exact hreq
  | run hd => rw [hd] at h; cases h

/-- Neither the sampling nor the ticks write `LCDC` (R160). -/
theorem lcdc_runTicks_sampleDisplay (n : Nat) (s : State) : (runTicks n (sampleDisplay s)).lcdc = s.lcdc := by
  rw [((sameSettings_sampleDisplay s).trans (sameSettings_runTicks n _)).eq]

theorem runTicks_displayOn (n : Nat) (s : State) : (runTicks n s).displayOn = s.displayOn := by
  cases hd : s.displayOn with
  | false => rw [runTicks_off n hd, hd]
  | true => rw [runTicks_on n hd, ticks_displayOn, hd]

theorem runTicks_add (a b : Nat) (s : State) : runTicks b (runTicks a s) = runTicks (a + b) s := by
  cases hd : s.displayOn with
  | false => rw [runTicks_off a hd, runTicks_off b hd, runTicks_off (a + b) hd]
  | true =>
    rw [runTicks_on a hd, runTicks_on b ((ticks_displayOn a s).trans hd), runTicks_on (a + b) hd, ticks_add]

/-- Settles O53: at the second `STEP` the sampling finds nothing to do, and the ticks follow on. -/
theorem stepsAddUp : Obligations.StepsAddUp := by
  intro s a b
  refine ⟨_, exec_step_nat a s, fun hcond => ?_⟩
  have hagain : sampleDisplay (runTicks a (sampleDisplay s)) = runTicks a (sampleDisplay s) := by
    cases hd : (sampleDisplay s).displayOn with
    | false =>
      rw [runTicks_off a hd]
      exact sampleDisplay_idle hd (sampleDisplay_off hd)
    | true =>
      have hon := (runTicks_displayOn a (sampleDisplay s)).trans hd
      refine sampleDisplay_on _ hon ?_
      rw [lcdc_runTicks_sampleDisplay]
      exact hcond.imp_right fun h => h.resolve_left (ne_false_of_eq_true hon)
  rw [exec_step_nat, exec_step_nat, hagain, runTicks_add]

/-! ## The position in closed form -/

/-- The position after `n` ticks from the start of a frame (R161, R177). -/
structure PlacedAt (n : Nat) (t : State) : Prop where
  mode      : t.mode = modeAt (n / 456 % 154) (n % 456)
  lineCycle : t.lineCycle = n % 456
  ly        : t.ly.toNat = n / 456 % 154

theorem placedAt_of_frameStart {s : State} (h : FrameStart s) : PlacedAt 0 s := by
  obtain ⟨-, hm, hc, hly⟩ := h
  exact ⟨hm, hc, by rw [hly]; rfl⟩

section
variable {l c : Nat}

theorem modeAt_vblank (hl : 144 ≤ l) : modeAt l c = .vblank := if_pos hl

theorem modeAt_oam (hl : l < 144) (hc : c < 80) : modeAt l c = .oam := by
  rw [modeAt, if_neg (by omega), if_pos hc]

theorem modeAt_xfer (hl : l < 144) (hc : 80 ≤ c) (hc' : c < 252) : modeAt l c = .xfer := by
  rw [modeAt, if_neg (by omega), if_neg (by omega), if_pos hc']

theorem modeAt_hblank (hl : l < 144) (hc : 252 ≤ c) : modeAt l c = .hblank := by
  rw [modeAt, if_neg (by omega), if_neg (by omega), if_neg (by omega)]

end

/-- Inside a scanline the table goes from one cycle's mode to the next one's (R161, R168). -/
theorem nextPosition_in_line {c : Nat} {ly : Byte} (hc : c + 1 ≠ 456) :
    nextPosition (modeAt ly.toNat c) c ly = (modeAt ly.toNat (c + 1), c + 1, ly) := by
  rcases Nat.lt_or_ge ly.toNat 144 with hl | hl
  case inr => rw [modeAt_vblank hl, modeAt_vblank hl]; exact if_neg hc
  case inl =>
    rcases Nat.lt_or_ge c 252 with hc2 | hc2
    case inr => rw [modeAt_hblank hl hc2, modeAt_hblank hl (by omega)]; exact if_neg hc
    case inl =>
      rcases Nat.lt_or_ge c 80 with hc1 | hc1
      · rw [modeAt_oam hl hc1, nextPosition]
        by_cases hend : c + 1 = 80
        · rw [if_pos hend, modeAt_xfer hl (by omega) (by omega)]
        · rw [if_neg hend, modeAt_oam hl (by omega)]
      · rw [modeAt_xfer hl hc1 hc2, nextPosition]
        by_cases hend : c + 1 = 252
        · rw [if_pos hend, modeAt_hblank hl (by omega)]
        · rw [if_neg hend, modeAt_xfer hl (by omega) (by omega)]

/-- At the end of a scanline the table goes to the start of the next, after scanline 153 to that of scanline 0 (R168). -/
theorem nextPosition_line_end {ly : Byte} (hly : ly.toNat < 154) :
    nextPosition (modeAt ly.toNat 455) 455 ly =
      (modeAt ((ly.toNat + 1) % 154) 0, 0, BitVec.ofNat 8 ((ly.toNat + 1) % 154)) := by
  by_cases hlast : ly.toNat = 153
  · have hwrap : ly + 1#8 = 154#8 := by bv_omega
    rw [hlast, modeAt_vblank (by omega), nextPosition, if_pos rfl, if_pos hwrap]
    rfl
  · have hnext : ly + 1#8 = BitVec.ofNat 8 (ly.toNat + 1) := by bv_omega
    rw [Nat.mod_eq_of_lt (show ly.toNat + 1 < 154 by omega)]
    rcases Nat.lt_or_ge ly.toNat 144 with hl | hl
    · rw [modeAt_hblank hl (by omega), nextPosition, if_pos rfl, hnext]
      by_cases h143 : ly.toNat = 143
      · rw [h143]; rfl
      · rw [if_neg (by bv_omega), modeAt_oam (by omega) (by omega)]
    · rw [modeAt_vblank hl, modeAt_vblank (by omega), nextPosition, if_pos rfl, if_neg (by bv_omega), hnext]

theorem PlacedAt.tick {n : Nat} {t : State} (h : PlacedAt n t) : PlacedAt (n + 1) (tick t) := by
  obtain ⟨hm, hc, hly⟩ := h
  have hpos := tick_position t
  rw [hm, hc, ← hly] at hpos
  by_cases hend : n % 456 = 455
  case pos =>
    rw [hend, nextPosition_line_end (by omega)] at hpos
    obtain ⟨hmode, hcycle, hline⟩ : _ ∧ _ ∧ _ := by simpa only [Prod.mk.injEq] using hpos
    have hl' : (n + 1) / 456 % 154 = (t.ly.toNat + 1) % 154 := by omega
    have hc' : (n + 1) % 456 = 0 := by omega
    refine ⟨by rw [hmode, hl', hc'], by rw [hcycle, hc'], ?_⟩
    rw [hline, BitVec.toNat_ofNat, hl']
    omega
  case neg =>
    rw [nextPosition_in_line (by omega)] at hpos
    obtain ⟨hmode, hcycle, hline⟩ : _ ∧ _ ∧ _ := by simpa only [Prod.mk.injEq] using hpos
    have hl' : (n + 1) / 456 % 154 = t.ly.toNat := by omega
    have hc' : (n + 1) % 456 = n % 456 + 1 := by omega
    exact ⟨by rw [hmode, hl', hc'], by rw [hcycle, hc'], by rw [hline, hl']⟩

theorem placedAt_ticks {s : State} (h : FrameStart s) (n : Nat) : PlacedAt n (ticks n s) := by
  induction n with
  | zero => exact placedAt_of_frameStart h
  | succ n ih => rw [ticks_succ]; exact ih.tick

/-- A `STEP` from the start of a frame is its ticks (R160). -/
theorem exec_step_of_frameStart {s : State} (h : FrameStart s) (n : Nat) : exec (.step n) s = .next (ticks n s) := by
  obtain ⟨hd, hm, -, -⟩ := h
  rw [exec_step_nat, sampleDisplay_on s hd (.inr (by simp [hm])), runTicks_on n hd]

/-- Settles O51: the ticks and the place after them. -/
theorem sequencerPositionInClosedForm : Obligations.SequencerPositionInClosedForm := fun _ n h =>
  have hplace := placedAt_ticks h n
  ⟨_, exec_step_of_frameStart h n, (ticks_displayOn n _).trans h.1, hplace.lineCycle, hplace.ly, hplace.mode⟩

/-! ## The requests of one frame

Each count is of the ticks 1 to `n` from the start of a frame, for `n` up to one frame. -/

/-- Entries of OAM-search: at the start of scanlines 1 to 143, and of the next frame's scanline 0. -/
def oamEntries (n : Nat) : Nat := min (n / 456) 143 + n / 70224

/-- Entries of HBlank: at cycle 252 of the 144 visible scanlines. -/
def hblankEntries (n : Nat) : Nat := min ((n + 204) / 456) 144

/-- Entries of VBlank: at the start of scanline 144. -/
def vblankEntries (n : Nat) : Nat := n / 65664

/-- Comparisons that turn true: at the start of scanline `lyc`, of the next frame's one when it is 0. -/
def lycMatches (lyc : Byte) (n : Nat) : Nat :=
  if lyc.toNat = 0 then n / 70224 else if lyc.toNat ≤ 153 ∧ 456 * lyc.toNat ≤ n then 1 else 0

/-- The output after `n` ticks from the start of the frame at `s`. -/
structure CountedAt (s : State) (n : Nat) (t : State) : Prop where
  coinc    : t.stat.coinc = (t.ly == t.lyc)
  vblanks  : raises .vblank t.trace = raises .vblank s.trace + vblankEntries n
  presents : presents t.trace = presents s.trace + vblankEntries n
  flag     : vblankEntries n = 1 → t.ifVblank = true
  stats    : raises .stat t.trace = raises .stat s.trace + s.stat.oamIe.toNat * oamEntries n
    + s.stat.hblankIe.toNat * hblankEntries n + s.stat.vblankIe.toNat * vblankEntries n
    + s.stat.lycIe.toNat * lycMatches s.lyc n

theorem CountedAt.zero {s : State} (h : s.stat.coinc = (s.ly == s.lyc)) : CountedAt s 0 s := by
  have hmatches : lycMatches s.lyc 0 = 0 := by
    unfold lycMatches
    split
    · rfl
    · exact if_neg (by omega)
  exact ⟨h, rfl, rfl, nofun, by rw [hmatches]; rfl⟩

/-- A true coincidence bit makes the comparison with another index fire exactly when it turns true (R174). -/
theorem compareFires_of_coinc {t : State} (h : t.stat.coinc = (t.ly == t.lyc)) {ly : Byte} (hne : ly ≠ t.ly) :
    compareFires t ly t.lyc = (t.stat.lycIe && ly == t.lyc) := by
  unfold compareFires
  rw [h]
  cases heq : ly == t.lyc with
  | false => simp
  | true =>
    have hold : (t.ly == t.lyc) = false := beq_false_of_ne fun h => hne ((eq_of_beq heq).trans h.symm)
    rw [hold]
    simp

/-- What a tick from `t` to `u` adds to the output: `o`, `h`, `v` and `m` entries of OAM-search, HBlank and VBlank and
comparisons that turn true. -/
structure Adds (t u : State) (o h v m : Nat) : Prop where
  coinc    : u.stat.coinc = (u.ly == u.lyc)
  vblanks  : raises .vblank u.trace = raises .vblank t.trace + v
  presents : presents u.trace = presents t.trace + v
  flag     : v = 1 → u.ifVblank = true
  stats    : raises .stat u.trace = raises .stat t.trace + t.stat.oamIe.toNat * o + t.stat.hblankIe.toNat * h
    + t.stat.vblankIe.toNat * v + t.stat.lycIe.toNat * m

section
variable {t : State} (hcoinc : t.stat.coinc = (t.ly == t.lyc))
include hcoinc

theorem adds_of_count (m : Mode) (c : Nat) : Adds t { t with mode := m, lineCycle := c } 0 0 0 0 :=
  ⟨hcoinc, rfl, rfl, nofun, rfl⟩

theorem adds_hblankEntered : Adds t (hblankEntered t) 0 1 0 0 where
  coinc := by simp only [hblankEntered, hblankDma_keeps, renderLine_keeps, hcoinc]
  vblanks := by simp [hblankEntered]
  presents := by simp [hblankEntered]
  flag := nofun
  stats := by simp [hblankEntered]

/-- The STAT requests of a comparison with another index (R174). -/
theorem raises_stat_compared {ly : Byte} (hne : ly ≠ t.ly) :
    raises .stat (compared t ly t.lyc).trace = raises .stat t.trace + t.stat.lycIe.toNat * (ly == t.lyc).toNat := by
  rw [compared, raises_append, raises_stat_statIf, compareFires_of_coinc hcoinc hne]
  cases t.stat.lycIe <;> simp

theorem adds_lineStarted {ly : Byte} (hne : ly ≠ t.ly) : Adds t (lineStarted ly t) 1 0 0 (ly == t.lyc).toNat where
  coinc := rfl
  vblanks := by simp [lineStarted, compared]
  presents := by simp [lineStarted, compared]
  flag := nofun
  stats := by
    rw [lineStarted, raises_append, raises_stat_compared hcoinc hne, raises_stat_statIf]
    omega

theorem adds_vblankEntered (hne : 144#8 ≠ t.ly) : Adds t (vblankEntered t) 0 0 1 (144#8 == t.lyc).toNat where
  coinc := rfl
  vblanks := by
    simp only [vblankEntered, compared, raises_append, raises_vblank_statIf, raises_vblank_vblank, raises_present, add_zero]
  presents := by
    simp only [vblankEntered, compared, presents_append, presents_statIf, presents_raise, presents_present, add_zero]
  flag := fun _ => rfl
  stats := by
    simp only [vblankEntered, raises_append, raises_stat_compared hcoinc hne, raises_stat_statIf, raises_stat_vblank,
      raises_present]
    omega

theorem adds_vblankLineStarted : Adds t (vblankLineStarted t) 0 0 0 (t.ly + 1#8 == t.lyc).toNat where
  coinc := rfl
  vblanks := by simp [vblankLineStarted, compared]
  presents := by simp [vblankLineStarted, compared]
  flag := nofun
  stats := by
    have hne : t.ly + 1#8 ≠ t.ly := by bv_omega
    rw [vblankLineStarted, raises_stat_compared hcoinc hne]
    omega

end

/-- How the four counts go on at tick `n + 1`. -/
structure CountsGo (n : Nat) (lyc : Byte) (o h v m : Nat) : Prop where
  oam    : oamEntries (n + 1) = oamEntries n + o
  hblank : hblankEntries (n + 1) = hblankEntries n + h
  vblank : vblankEntries (n + 1) = vblankEntries n + v
  lyc    : lycMatches lyc (n + 1) = lycMatches lyc n + m

section
variable {n : Nat} (hn : n < 70224)
include hn

theorem lycMatches_in_line (hc : n % 456 ≠ 455) (lyc : Byte) : lycMatches lyc (n + 1) = lycMatches lyc n := by
  unfold lycMatches
  split
  · omega
  · congr 1
    simp only [eq_iff_iff]
    omega

/-- At the end of a scanline the comparison with the next index is what the count goes on by. -/
theorem lycMatches_line_end (hc : n % 456 = 455) {ly : Byte} (hly : ly.toNat = (n + 1) / 456 % 154) (lyc : Byte) :
    lycMatches lyc (n + 1) = lycMatches lyc n + (ly == lyc).toNat := by
  have hbeq : (ly == lyc).toNat = if lyc.toNat = (n + 1) / 456 % 154 then 1 else 0 := by
    rw [← hly]
    by_cases h : ly = lyc
    · rw [h, beq_self_eq_true, if_pos rfl]; rfl
    · rw [beq_false_of_ne h, if_neg fun q => h (BitVec.eq_of_toNat_eq q.symm)]; rfl
  rw [hbeq]
  unfold lycMatches
  split_ifs <;> omega

theorem countsGo_count (hc : n % 456 ≠ 455) (hh : n % 456 = 251 → 144 ≤ n / 456) (lyc : Byte) :
    CountsGo n lyc 0 0 0 0 :=
  ⟨by unfold oamEntries; omega, by unfold hblankEntries; omega, by unfold vblankEntries; omega,
    lycMatches_in_line hn hc lyc⟩

theorem countsGo_hblank (hc : n % 456 = 251) (hl : n / 456 < 144) (lyc : Byte) : CountsGo n lyc 0 1 0 0 :=
  ⟨by unfold oamEntries; omega, by unfold hblankEntries; omega, by unfold vblankEntries; omega,
    lycMatches_in_line hn (by omega) lyc⟩

variable (hc : n % 456 = 455) {ly : Byte} (hly : ly.toNat = (n + 1) / 456 % 154)
include hc hly

theorem countsGo_oam (hl : n / 456 < 143 ∨ n / 456 = 153) (lyc : Byte) : CountsGo n lyc 1 0 0 (ly == lyc).toNat :=
  ⟨by unfold oamEntries; omega, by unfold hblankEntries; omega, by unfold vblankEntries; omega,
    lycMatches_line_end hn hc hly lyc⟩

theorem countsGo_vblank (hl : n / 456 = 143) (lyc : Byte) : CountsGo n lyc 0 0 1 (ly == lyc).toNat :=
  ⟨by unfold oamEntries; omega, by unfold hblankEntries; omega, by unfold vblankEntries; omega,
    lycMatches_line_end hn hc hly lyc⟩

theorem countsGo_vblankLine (hl : 143 < n / 456) (hl' : n / 456 < 153) (lyc : Byte) :
    CountsGo n lyc 0 0 0 (ly == lyc).toNat :=
  ⟨by unfold oamEntries; omega, by unfold hblankEntries; omega, by unfold vblankEntries; omega,
    lycMatches_line_end hn hc hly lyc⟩

end

/-! The modes of the timing table, as places (R161). -/

theorem lt_of_modeAt_xfer {l c : Nat} (h : modeAt l c = .xfer) : l < 144 := by
  by_contra hl
  rw [modeAt_vblank (by omega)] at h
  cases h

theorem lt_of_modeAt_hblank {l c : Nat} (h : modeAt l c = .hblank) : l < 144 := by
  by_contra hl
  rw [modeAt_vblank (by omega)] at h
  cases h

theorem le_of_modeAt_vblank {l c : Nat} (h : modeAt l c = .vblank) : 144 ≤ l := by
  by_contra hl
  rw [modeAt, if_neg hl] at h
  split at h
  · cases h
  · split at h <;> cases h

/-- An interior tick ends no scanline, and enters HBlank on no visible one. -/
theorem place_of_interior {l c : Nat} (h : boundaryTick (modeAt l c) c = false) :
    c ≠ 455 ∧ (c = 251 → 144 ≤ l) := by
  refine ⟨?_, ?_⟩
  · rintro rfl
    rcases Nat.lt_or_ge l 144 with hl | hl
    · rw [modeAt_hblank hl (by omega)] at h; cases h
    · rw [modeAt_vblank hl] at h; cases h
  · rintro rfl
    by_contra hl
    rw [modeAt_xfer (by omega) (by omega) (by omega)] at h
    cases h

/-- A tick adds to the output what the counts go on by. -/
theorem adds_tick {n : Nat} (hn : n < 70224) {t : State} (hp : PlacedAt n t) (hcoinc : t.stat.coinc = (t.ly == t.lyc)) :
    ∃ o h v m, Adds t (tick t) o h v m ∧ CountsGo n t.lyc o h v m := by
  obtain ⟨hmode, hcycle, hline⟩ := hp
  rw [Nat.mod_eq_of_lt (show n / 456 < 154 by omega)] at hmode hline
  generalize hu : tick t = u
  cases (hu ▸ tickTo_tick t : TickTo t u) with
  | interior hin =>
    rw [hmode, hcycle] at hin
    obtain ⟨hend, hentry⟩ := place_of_interior hin
    exact ⟨_, _, _, _, adds_of_count hcoinc _ _, countsGo_count hn hend hentry _⟩
  | enterXfer hm hc => exact ⟨_, _, _, _, adds_of_count hcoinc _ _, countsGo_count hn (by omega) (by omega) _⟩
  | enterHblank hm hc =>
    have hl := lt_of_modeAt_xfer (hmode.symm.trans hm)
    exact ⟨_, _, _, _, adds_hblankEntered hcoinc, countsGo_hblank hn (by omega) hl _⟩
  | nextLine hm hc hly =>
    have hl := lt_of_modeAt_hblank (hmode.symm.trans hm)
    exact ⟨_, _, _, _, adds_lineStarted hcoinc (by bv_omega),
      countsGo_oam hn (by omega) (by bv_omega) (.inl (by bv_omega)) _⟩
  | enterVblank hm hc hly =>
    exact ⟨_, _, _, _, adds_vblankEntered hcoinc (by bv_omega),
      countsGo_vblank hn (by omega) (by bv_omega) (by bv_omega) _⟩
  | nextVblankLine hm hc hly =>
    have hl := le_of_modeAt_vblank (hmode.symm.trans hm)
    exact ⟨_, _, _, _, adds_vblankLineStarted hcoinc,
      countsGo_vblankLine hn (by omega) (by bv_omega) (by omega) (by bv_omega) _⟩
  | nextFrame hm hc hly =>
    exact ⟨_, _, _, _, adds_lineStarted hcoinc (by bv_omega),
      countsGo_oam hn (by omega) (by bv_omega) (.inr (by bv_omega)) _⟩

theorem CountedAt.tick {s t : State} {n : Nat} (hn : n < 70224) (hp : PlacedAt n t) (hsame : SameSettings s t)
    (h : CountedAt s n t) : CountedAt s (n + 1) (tick t) := by
  obtain ⟨o, hb, v, m, hadds, hgo⟩ := adds_tick hn hp h.coinc
  have hlyc : t.lyc = s.lyc := by rw [hsame.eq]
  have hstat : t.stat = { s.stat with coinc := t.stat.coinc } := by rw [hsame.eq]
  rw [hlyc] at hgo
  refine ⟨hadds.coinc, ?vblanks, ?presents, fun hone => ?flag, ?stats⟩
  case vblanks => rw [hadds.vblanks, h.vblanks, hgo.vblank, Nat.add_assoc]
  case presents => rw [hadds.presents, h.presents, hgo.vblank, Nat.add_assoc]
  case flag =>
    rw [hgo.vblank] at hone
    rcases Nat.eq_zero_or_pos v with hv | hv
    · exact (grows_tick t).ifVblank (h.flag (by omega))
    · exact hadds.flag (by omega)
  case stats =>
    rw [hadds.stats, h.stats, hgo.oam, hgo.hblank, hgo.vblank, hgo.lyc, hstat]
    ring

theorem countedAt_ticks {s : State} (h : FrameStart s) (hcoinc : s.stat.coinc = (s.ly == s.lyc)) {n : Nat}
    (hn : n ≤ 70224) : CountedAt s n (ticks n s) := by
  induction n with
  | zero => exact .zero hcoinc
  | succ n ih =>
    rw [ticks_succ]
    exact (ih (by omega)).tick (by omega) (placedAt_ticks h n) (sameSettings_ticks n s)

theorem toNat_mul_eq_ite (b : Bool) (k : Nat) : b.toNat * k = if b then k else 0 := by
  cases b <;> simp

/-- Settles O52: the place and the counts after the ticks of one frame. -/
theorem requestsPerFrame : Obligations.RequestsPerFrame := by
  intro s h hcoinc
  obtain ⟨hm, hc, hly⟩ := placedAt_ticks h 70224
  obtain ⟨-, hvblanks, hpresents, hflag, hstats⟩ := countedAt_ticks h hcoinc (le_refl 70224)
  refine ⟨_, exec_step_of_frameStart h 70224, ⟨?on, hm, hc, BitVec.eq_of_toNat_eq hly⟩, hflag rfl, hpresents, hvblanks,
    hstats.trans ?_⟩
  case on => exact (ticks_displayOn _ s).trans h.1
  have hmatches : lycMatches s.lyc 70224 = if s.lyc.toNat ≤ 153 then 1 else 0 := by
    unfold lycMatches
    split_ifs <;> omega
  rw [hmatches, show oamEntries 70224 = 144 from rfl, show hblankEntries 70224 = 144 from rfl,
    show vblankEntries 70224 = 1 from rfl]
  simp only [toNat_mul_eq_ite, ite_and]

end Sys2Proof.Machine
end

section
/-! PROOF. The compositor column by column (R310 to R340): the row in closed form, what it reads, and the row with all layers
off. -/

namespace Sys2Proof.Machine

open Sys2Proof.Spec

/-! ## The row in closed form -/

/-- A sprite wins against this background or window pixel (R335, R336). -/
def winsOver (s : State) (opts : Byte) (back : LayerPixel) : Bool :=
  if s.cfg.colorMode then back.raw == 0#2 || (!optPrio opts && !back.prio) else !optPrio opts || back.raw == 0#2

/-- What a descriptor puts over this background or window pixel, if anything (R333, R334, R337). -/
def spriteOver (s : State) (back : LayerPixel) (sp : Sprite) (ly : Byte) (h x : Nat) : Option Color :=
  if sp.x ≤ (x : Int) ∧ (x : Int) < sp.x + 8 ∧ spriteRaw s sp ly h ((x : Int) - sp.x).toNat ≠ 0#2 ∧
      winsOver s sp.opts back = true then
    some (objColor s sp.opts (spriteRaw s sp ly h ((x : Int) - sp.x).toNat))
  else none

/-- The colour of a column of a composited row (R310): the first selected sprite that shows, else background or window. -/
def rowColor (s : State) (ly : Byte) (x : Nat) : Color :=
  let back := layersAt s ly x
  if objEn s then
    ((selectSprites s ly (spriteHeight s)).findSome? fun n =>
      spriteOver s back (spriteAt s n) ly (spriteHeight s) x).getD back.color
  else back.color

theorem spriteWins_layers (s : State) (ly opts x : Byte) :
    spriteWins (renderWindow ly (renderBackground ly s)) opts x.toNat = winsOver s opts (layersAt s ly x.toNat) := by
  rw [spriteWins, BitVec.ofNat_toNat, BitVec.setWidth_eq, lineRaw_layers, linePrio_layers]
  rfl

theorem spriteAtColumn_layers (s : State) (sp : Sprite) (ly : Byte) (h : Nat) (x : Byte) :
    spriteAtColumn (renderWindow ly (renderBackground ly s)) sp ly h x.toNat =
      spriteOver s (layersAt s ly x.toNat) sp ly h x.toNat := by
  rw [spriteAtColumn, spriteWins_layers]
  rfl

theorem lineColor_renderLine (ly : Byte) (s : State) (x : Byte) :
    at256 (renderLine ly s).lineColor x = rowColor s ly x.toNat := by
  simp only [renderLine, commitLine_keeps, lineColor_renderSprites, lineColor_layers, spriteAtColumn_layers]
  rfl

theorem lineRaw_renderLine (ly : Byte) (s : State) (x : Byte) :
    at256 (renderLine ly s).lineRaw x = (layersAt s ly x.toNat).raw := by
  simp only [renderLine, commitLine_keeps, renderSprites_keeps, lineRaw_layers]

theorem linePrio_renderLine (ly : Byte) (s : State) (x : Byte) :
    at256 (renderLine ly s).linePrio x = (layersAt s ly x.toNat).prio := by
  simp only [renderLine, commitLine_keeps, renderSprites_keeps, linePrio_layers]

/-! ## What the row depends on -/

theorem ext_at256 {α : Type} {v w : Vector α 256} (h : ∀ x : Byte, at256 v x = at256 w x) : v = w := by
  apply Vector.ext
  intro i hi
  have hx := h (BitVec.ofNat 8 i)
  simpa only [at256, BitVec.toNat_ofNat, Nat.mod_eq_of_lt hi] using hx

/-- Two states with the same layers, row colours and frame come out of the compositor with the same picture. -/
theorem renderLine_congr {s t : State} (ly : Byte) (hlayers : ∀ x, layersAt t ly x = layersAt s ly x)
    (hrow : ∀ x, rowColor t ly x = rowColor s ly x) (hframe : t.frame = s.frame) :
    (renderLine ly t).frame = (renderLine ly s).frame ∧ (renderLine ly t).lineColor = (renderLine ly s).lineColor ∧
    (renderLine ly t).lineRaw = (renderLine ly s).lineRaw ∧ (renderLine ly t).linePrio = (renderLine ly s).linePrio := by
  have hcolor : (renderLine ly t).lineColor = (renderLine ly s).lineColor :=
    ext_at256 fun x => by rw [lineColor_renderLine, lineColor_renderLine, hrow]
  refine ⟨?_, hcolor, ext_at256 fun x => ?_, ext_at256 fun x => ?_⟩
  · rw [renderLine_frame ly t, renderLine_frame ly s]
    dsimp only
    rw [hcolor, hframe]
  · rw [lineRaw_renderLine, lineRaw_renderLine, hlayers]
  · rw [linePrio_renderLine, linePrio_renderLine, hlayers]

/-- Settles O37: the layers and the row in closed form read none of those registers. -/
theorem compositorIgnoresBankStatusAndDma : Obligations.CompositorIgnoresBankStatusAndDma :=
  fun s ly _ _ _ _ _ _ _ _ _ _ _ => renderLine_congr (s := s) ly (fun _ => rfl) (fun _ => rfl) rfl

/-! ## The row at HBlank entry -/

/-- A pixel of the frame after the tick that enters HBlank (R340). -/
theorem framePixel_hblankEntered (s : State) (y : Fin 144) (x : Byte) :
    framePixel (hblankEntered s) y x = if y.val = s.ly.toNat then rowColor s s.ly x.toNat else framePixel s y x := by
  have hrow : rowColor { s with mode := .hblank, lineCycle := 252 } s.ly x.toNat = rowColor s s.ly x.toNat := rfl
  have hframe : (hblankEntered s).frame[y] =
      (renderLine s.ly { s with mode := .hblank, lineCycle := 252 }).frame[y] := by
    simp only [hblankEntered, hblankDma_keeps]
  rw [framePixel, hframe, ← hrow, ← lineColor_renderLine]
  refine (congrArg (at256 · x) (frame_renderLine s.ly _ y.val y.isLt)).trans ?_
  split <;> rfl

/-- With the background, window and sprite layers off background and window leave the blank pixel (R313). -/
theorem layersAt_disabled {s : State} (hbg : s.lcdc.getLsbD 0 = false) (hwin : s.lcdc.getLsbD 5 = false) (ly : Byte)
    (x : Nat) : layersAt s ly x = { raw := 0#2, prio := false, color := s.cfg.blankColor } := by
  have hoff : windowOn s ly = false := by rw [windowOn, winEn, hwin]; rfl
  have hnone : windowAt s ly x = none := if_neg fun hon => ne_true_of_eq_false hoff hon.1
  have hblank : bgPixel s ly x = { raw := 0#2, prio := false, color := s.cfg.blankColor } := 
    if_neg (ne_true_of_eq_false hbg)
  rw [layersAt, hnone, hblank]
  rfl

/-- Settles O35: every column is the blank pixel, and no sprite is drawn. -/
theorem disabledLayersGiveABlankRow : Obligations.DisabledLayersGiveABlankRow := by
  intro s h hbg hwin hobj
  have hlayers := layersAt_disabled (s := { s with mode := .hblank, lineCycle := 252 }) hbg hwin s.ly
  have hrow : ∀ x, rowColor { s with mode := .hblank, lineCycle := 252 } s.ly x = s.cfg.blankColor := fun x => by
    rw [rowColor, hlayers]
    exact if_neg (ne_true_of_eq_false hobj)
  refine ⟨_, exec_step_one_hblank h, fun x => ⟨?color, ?raw, ?prio, fun y hy => ?frame⟩⟩
  case color => simp only [hblankEntered, hblankDma_keeps, lineColor_renderLine, hrow]
  case raw => simp only [hblankEntered, hblankDma_keeps, lineRaw_renderLine, hlayers]
  case prio => simp only [hblankEntered, hblankDma_keeps, linePrio_renderLine, hlayers]
  case frame =>
    rw [framePixel_hblankEntered, if_pos hy]
    exact hrow _

end Sys2Proof.Machine
end

section
/-! PROOF. The composited row is the picture (R310 to R340): in a state that meets the invariant each layer in closed form is
the layer computed from registers and memory bytes. -/

namespace Sys2Proof.Machine

open Sys2Proof.Spec

/-! ## Background and window -/

/-- A pixel in the words of the statements. -/
def LayerPixel.toBack (p : LayerPixel) : Back := (p.raw, p.prio, p.color)

theorem cellOffset_eq (m : AddrMap) (sel : Bool) (mr mc : Nat) :
    cellOffset m sel mr mc = BitVec.ofNat 13 ((if sel then m.map1Off else m.map0Off).toNat + 32 * mr + mc) := by
  rw [Nat.add_assoc, BitVec.ofNat_add, BitVec.ofNat_toNat, BitVec.setWidth_eq]
  rfl

/-- A colour of the background palettes, from the raw values or the palette register (R291). -/
theorem bgColor_of_inv {s : State} (h : Inv s) (pal : BitVec 3) (raw : RawIndex) :
    bgColor s pal raw = if s.cfg.colorMode then scaled (at32 s.bgPal.raw (pal ++ raw))
      else at4 s.cfg.monoShade (s.bgp.extractLsb' (2 * raw.toNat) 2) := by
  obtain ⟨hshade, -, -⟩ := h.shades
  rw [bgColor, h.bgPal, scale15_eq_scaled, monoBgColor, hshade, at4_shadeTable]
  rfl

/-- A flipped place inside a tile, as a number (R130). -/
theorem flipped_toNat (flip : Bool) {i : Nat} (hi : i < 8) :
    (BitVec.ofNat 3 (if flip then 7 - i else i)).toNat = if flip then 7 - i else i := by
  rw [BitVec.toNat_ofNat]
  split <;> omega

theorem flippedRow_toNat (flip : Bool) {i : Nat} (hi : i < 8) :
    (if flip then 7#3 - BitVec.ofNat 3 i else BitVec.ofNat 3 i).toNat = if flip then 7 - i else i := by
  split
  · rw [BitVec.toNat_sub, BitVec.toNat_ofNat, BitVec.toNat_ofNat]
    omega
  · rw [BitVec.toNat_ofNat]
    omega

theorem ofBool_beq_one (b : Bool) : (BitVec.ofBool b == 1#1) = b := by cases b <;> rfl

/-- A pixel of a fetched map cell is that of the cell computed from the bytes (R315, R316, R317). -/
theorem layerPixel_of_inv {s : State} (h : Inv s) (sel : Bool) (mr mc : Nat) {tr tc : Nat} (htr : tr < 8) (htc : tc < 8) :
    (layerPixel s (fetchTileRow s (cellOffset s.cfg.map sel mr mc) (BitVec.ofNat 3 tr)) tc).toBack =
      cellPixel s sel mr mc tr tc := by
  rw [cellOffset_eq]
  have hcol : (BitVec.ofNat 3 tc).toNat = tc := by rw [BitVec.toNat_ofNat]; omega
  simp only [layerPixel, fetchTileRow, at8_tabulate, hcol, LayerPixel.toBack, bgColor_of_inv h,
    tileLookup_of_coherent h.tiles, flipped_toNat _ htc, flippedRow_toNat _ htr, tileBank, ofBool_beq_one]
  rfl

theorem windowPixel_of_inv {s : State} (h : Inv s) (wl wx : Nat) :
    (windowPixel s wl wx).toBack = cellPixel s (winMap s) (wl / 8) (wx / 8 % 32) (wl % 8) (wx % 8) :=
  layerPixel_of_inv h _ _ _ (Nat.mod_lt _ (by omega)) (Nat.mod_lt _ (by omega))

theorem bgPixel_of_inv {s : State} (h : Inv s) (ly : Byte) (x : Nat) :
    (bgPixel s ly x).toBack =
      if bgEn s then
        cellPixel s (bgMap s) ((ly.toNat + s.scy.toNat) % 256 / 8) ((x + s.scx.toNat) % 256 / 8)
          ((ly.toNat + s.scy.toNat) % 256 % 8) ((x + s.scx.toNat) % 256 % 8)
      else (0#2, false, s.cfg.blankColor) := by
  have hrow : (bgPlaneRow s ly).toNat = (ly.toNat + s.scy.toNat) % 256 := BitVec.toNat_add ly s.scy
  unfold bgPixel
  split
  · rw [bgPlanePixel, hrow]
    exact layerPixel_of_inv h _ _ _ (Nat.mod_lt _ (by omega)) (Nat.mod_lt _ (by omega))
  · rfl

/-- The window covers a column of a scanline (R320, R321). -/
theorem windowAt_covers_iff (s : State) (ly : Byte) (x : Nat) :
    (windowOn s ly = true ∧ windowX0 s ≤ (x : Int)) ↔
      (s.lcdc.getLsbD 5 = true ∧ s.wy.toNat ≤ ly.toNat ∧ s.wx.toNat ≤ x + 7) := by
  rw [windowOn, winEn, Bool.and_eq_true, decide_eq_true_iff, windowX0, and_assoc]
  refine and_congr_right fun _ => and_congr_right fun _ => ?_
  omega

/-- What background and window leave at a column is that computed from the bytes (R312 to R323). -/
theorem layersAt_of_inv {s : State} (h : Inv s) (ly : Byte) (x : Nat) :
    (layersAt s ly x).toBack = backPixel s ly.toNat x := by
  rw [layersAt, backPixel, windowAt]
  simp only [windowAt_covers_iff]
  split
  case isTrue hcover =>
    have hcol : ((x : Int) - windowX0 s).toNat = x + 7 - s.wx.toNat := by unfold windowX0; omega
    rw [hcol]
    exact windowPixel_of_inv h _ _
  case isFalse => exact bgPixel_of_inv h ly x

/-! ## The selection -/

/-- The elements that satisfy a predicate and come after fewer than `k` others that do are the first `k` that do. -/
theorem filter_range_countP_lt (p : Nat → Bool) (k n : Nat) :
    (List.range n).filter (fun i => p i && decide ((List.range i).countP p < k)) = ((List.range n).filter p).take k := by
  induction n with
  | zero => simp
  | succ n ih =>
    rw [List.range_succ, List.filter_append, List.filter_append, ih, List.take_append, ← List.countP_eq_length_filter]
    congr 1
    rcases Nat.lt_or_ge ((List.range n).countP p) k with hlt | hge
    · cases hp : p n with
      | false => simp [hp]
      | true =>
        obtain ⟨j, hj⟩ := Nat.exists_eq_add_of_lt hlt
        simp [hp, hlt, show k - (List.range n).countP p = j + 1 by omega]
    · simp [show ¬ (List.range n).countP p < k by omega, show k - (List.range n).countP p = 0 by omega]

theorem spriteHeight_eq_spriteRows (s : State) : spriteHeight s = spriteRows s := rfl

/-- The fields of a descriptor are those of its entry's bytes (R54, R300). -/
theorem spriteAt_y_of_inv {s : State} (h : Inv s) (n : Fin 40) :
    (spriteAt s n).y = (oamByte s n.val 0 : Int) - 16 := by rw [h.sprites n]; rfl

theorem spriteAt_x_of_inv {s : State} (h : Inv s) (n : Fin 40) :
    (spriteAt s n).x = (oamByte s n.val 1 : Int) - 8 := by rw [h.sprites n]; rfl

theorem spriteAt_opts_of_inv {s : State} (h : Inv s) (n : Fin 40) :
    (spriteAt s n).opts = oamRead s (4 * n.val + 3) := by rw [h.sprites n]; rfl

/-- A descriptor covers a scanline when its entry does (R331). -/
theorem covers_spriteAt_of_inv {s : State} (h : Inv s) (ly : Byte) (n : Fin 40) :
    covers (spriteAt s n) (spriteHeight s) ly = entryCovers s ly.toNat n.val := by
  rw [spriteHeight_eq_spriteRows, Bool.eq_iff_iff, covers_iff, spriteAt_y_of_inv h, entryCovers, Bool.and_eq_true,
    decide_eq_true_iff, decide_eq_true_iff]
  omega

/-- The selected entries are those that cover the scanline after fewer than ten others that do (R331). -/
theorem selectSprites_map_val {s : State} (h : Inv s) (ly : Byte) :
    (selectSprites s ly (spriteHeight s)).map Fin.val = (List.range 40).filter (entrySelected s ly.toNat) := by
  have hcovering : coveringEntries s ly (spriteHeight s) =
      (List.finRange 40).filter (entryCovers s ly.toNat ∘ Fin.val) :=
    List.filter_congr fun n _ => covers_spriteAt_of_inv h ly n
  calc (selectSprites s ly (spriteHeight s)).map Fin.val
      = (((List.finRange 40).filter (entryCovers s ly.toNat ∘ Fin.val)).map Fin.val).take 10 := by
        rw [selectSprites_eq_take, hcovering, List.map_take]
    _ = ((List.range 40).filter (entryCovers s ly.toNat)).take 10 := by
        rw [← List.filter_map, List.map_coe_finRange_eq_range]
    _ = (List.range 40).filter (entrySelected s ly.toNat) := (filter_range_countP_lt _ 10 40).symm

theorem entryCovers_of_mem_select {s : State} (h : Inv s) {ly : Byte} {n : Fin 40}
    (hn : n ∈ selectSprites s ly (spriteHeight s)) : entryCovers s ly.toNat n.val = true := by
  rw [← covers_spriteAt_of_inv h]
  exact (mem_coveringEntries s ly _ n).1 (List.mem_of_mem_take hn)

/-! ## One entry -/

/-- What an entry puts over the background or window pixel of a column, if it reaches it and wins there (R333, R334). -/
def entryShown (s : State) (ly x n : Nat) : Option Color :=
  match entryRaw s ly x n with
  | some raw =>
    if entryWins s (oamRead s (4 * n + 3)) raw (backPixel s ly x) then some (entryColor s (oamRead s (4 * n + 3)) raw)
    else none
  | none => none

theorem entryShown_of_isSome {s : State} {ly x n : Nat} (h : (entryShown s ly x n).isSome = true) :
    ∃ raw, entryRaw s ly x n = some raw ∧ entryShown s ly x n = some (entryColor s (oamRead s (4 * n + 3)) raw) := by
  unfold entryShown at h ⊢
  cases hraw : entryRaw s ly x n with
  | none => rw [hraw] at h; cases h
  | some raw =>
    rw [hraw] at h
    dsimp only at h ⊢
    by_cases hwins : entryWins s (oamRead s (4 * n + 3)) raw (backPixel s ly x) = true
    · exact ⟨raw, rfl, if_pos hwins⟩
    · rw [if_neg hwins] at h
      cases h

theorem entryShows_eq (s : State) (ly x n : Nat) :
    entryShows s ly x n = (objEn s && (entrySelected s ly n && (entryShown s ly x n).isSome)) := by
  rw [entryShows, entryShown, objEn, Bool.and_assoc]
  cases entryRaw s ly x n with
  | none => rfl
  | some raw => dsimp only; split <;> simp_all

/-- A colour of the sprite palettes, from the raw values or the palette registers (R291). -/
theorem objColor_of_inv {s : State} (h : Inv s) (opts : Byte) (raw : RawIndex) :
    objColor s opts raw = entryColor s opts raw := by
  obtain ⟨-, hshade0, hshade1⟩ := h.shades
  rw [objColor, entryColor, h.objPal, scale15_eq_scaled, monoObjColor, hshade0, hshade1, optMonoPal]
  cases opts.getLsbD 4 with
  | false => rw [if_neg Bool.false_ne_true, if_neg Bool.false_ne_true, at4_shadeTable]; rfl
  | true => rw [if_pos rfl, if_pos rfl, at4_shadeTable]; rfl

/-- Winning in both variants (R334, R335, R336). -/
theorem winsOver_eq_entryWins (s : State) (opts : Byte) {raw : RawIndex} (hraw : raw ≠ 0#2) (back : LayerPixel) :
    winsOver s opts back = entryWins s opts raw back.toBack := by
  have hopaque : (raw != 0#2) = true := bne_iff_ne.2 hraw
  rw [winsOver, entryWins, hopaque, Bool.true_and, optPrio, LayerPixel.toBack]
  cases s.cfg.colorMode with
  | true => rfl
  | false => rw [if_neg Bool.false_ne_true, Bool.or_comm]; simp

/-- A sprite's pixel is decoded from the bytes of tile bank 1 (R267). -/
theorem spritePixel_of_coherent {s : State} (h : TilesCoherent s) (b : Bank) (t : Byte) (r c : BitVec 3) :
    spritePixel s b t r c = rawOfBytes s b (s.cfg.map.tile1Off.toNat + 16 * t.toNat) r.toNat c.toNat :=
  tilePixel_of_coherent h b 1#1 t r c (tileRowOffset_storedTile s.cfg.map 1#1 t r)

/-- The low bit of the tile index cleared, as a number (R300). -/
theorem and_FE_toNat (b : Byte) : (b &&& 0xFE#8).toNat = b.toNat / 2 * 2 := by
  have hshift : b &&& 0xFE#8 = (b >>> 1) <<< 1 := by
    ext i hi
    interval_cases i <;> simp
  rw [hshift, BitVec.toNat_shiftLeft, BitVec.toNat_ushiftRight, Nat.shiftLeft_eq, Nat.shiftRight_eq_div_pow]
  have hb := b.isLt
  omega

section
variable {s : State} (h : Inv s) (ly : Byte) (n : Fin 40)

/-- The row of an entry's grid shown on a scanline, from its bytes (R333). -/
def entryGridRow (s : State) (ly n : Nat) : Nat :=
  if (oamRead s (4 * n + 3)).getLsbD 6 then spriteRows s - 1 - (ly + 16 - oamByte s n 0) else ly + 16 - oamByte s n 0

theorem entryGridRow_lt (hcov : entryCovers s ly.toNat n.val = true) : entryGridRow s ly.toNat n.val < spriteRows s := by
  rw [entryCovers, Bool.and_eq_true, decide_eq_true_iff, decide_eq_true_iff] at hcov
  unfold entryGridRow
  split <;> omega

include h

theorem spriteGridRow_of_inv :
    spriteGridRow (spriteAt s n) ly (spriteHeight s) = entryGridRow s ly.toNat n.val := by
  have hrow : ((ly.toNat : Int) - (spriteAt s n).y).toNat = ly.toNat + 16 - oamByte s n.val 0 := by
    rw [spriteAt_y_of_inv h]
    omega
  rw [spriteGridRow, hrow, spriteAt_opts_of_inv h]
  rfl

/-- The stored tile of a row of an entry's grid: in 8×16 mode the second of the pair from row 8 on (R333). -/
theorem spriteTile_of_inv {r : Nat} (hr : r < spriteRows s) :
    (if 8 ≤ r then (spriteAt s n).tile + 1#8 else (spriteAt s n).tile).toNat =
      if s.lcdc.getLsbD 2 then oamByte s n.val 2 / 2 * 2 + r / 8 else oamByte s n.val 2 := by
  have hbyte : oamByte s n.val 2 < 256 := BitVec.isLt _
  have htile : (spriteAt s n).tile.toNat = if s.lcdc.getLsbD 2 then oamByte s n.val 2 / 2 * 2 else oamByte s n.val 2 := by
    rw [h.sprites n]
    unfold spriteOf decodeSprite
    dsimp only
    split
    · exact and_FE_toNat _
    · rfl
  cases hsize : s.lcdc.getLsbD 2 with
  | true =>
    rw [hsize, if_pos rfl] at htile
    have hlt : r < 16 := by rwa [spriteRows, hsize] at hr
    rw [if_pos rfl]
    split
    · rw [BitVec.toNat_add, htile, BitVec.toNat_ofNat]
      omega
    · omega
  | false =>
    rw [hsize, if_neg Bool.false_ne_true] at htile
    have hlt : r < 8 := by rwa [spriteRows, hsize] at hr
    rw [if_neg Bool.false_ne_true, if_neg (by omega), htile]

/-- A pixel of an entry is that of the tile computed from the bytes (R333). -/
theorem spriteRaw_of_inv (hcov : entryCovers s ly.toNat n.val = true) {i : Nat} (hi : i < 8) :
    spriteRaw s (spriteAt s n) ly (spriteHeight s) i =
      rawOfBytes s (if s.cfg.colorMode then BitVec.ofBool ((oamRead s (4 * n.val + 3)).getLsbD 3) else 0#1)
        (s.cfg.map.tile1Off.toNat + 16 *
          if s.lcdc.getLsbD 2 then oamByte s n.val 2 / 2 * 2 + entryGridRow s ly.toNat n.val / 8 else oamByte s n.val 2)
        (entryGridRow s ly.toNat n.val % 8) (if (oamRead s (4 * n.val + 3)).getLsbD 5 then 7 - i else i) := by
  have hr := entryGridRow_lt ly n hcov
  rw [spriteRaw, spriteGridRow_of_inv h, ← spriteTile_of_inv h n hr, spritePixel_of_coherent h.tiles, flipped_toNat _ hi,
    BitVec.toNat_ofNat, Nat.mod_mod_of_dvd _ (by decide), spriteAt_opts_of_inv h]
  rfl

/-- What a descriptor puts over a column of a scanline it covers is what its entry puts there (R333, R334). -/
theorem spriteOver_of_inv (x : Nat) (hcov : entryCovers s ly.toNat n.val = true) :
    spriteOver s (layersAt s ly x) (spriteAt s n) ly (spriteHeight s) x = entryShown s ly.toNat x n.val := by
  have hx := spriteAt_x_of_inv h n
  by_cases hreach : oamByte s n.val 1 ≤ x + 8 ∧ x + 8 < oamByte s n.val 1 + 8
  case neg =>
    have hnone : entryRaw s ly.toNat x n.val = none := if_neg hreach
    rw [entryShown, hnone]
    refine if_neg fun hshown => hreach ?_
    omega
  case pos =>
    have hcol : ((x : Int) - (spriteAt s n).x).toNat = x + 8 - oamByte s n.val 1 := by omega
    have hraw : entryRaw s ly.toNat x n.val =
        some (spriteRaw s (spriteAt s n) ly (spriteHeight s) ((x : Int) - (spriteAt s n).x).toNat) := by
      rw [hcol, spriteRaw_of_inv h ly n hcov (by omega)]
      exact if_pos hreach
    rw [entryShown, hraw, spriteOver, spriteAt_opts_of_inv h]
    generalize spriteRaw s (spriteAt s n) ly (spriteHeight s) ((x : Int) - (spriteAt s n).x).toNat = raw
    by_cases hclear : raw = 0#2
    · rw [hclear, if_neg fun hshown => hshown.2.2.1 rfl]
      rfl
    · rw [winsOver_eq_entryWins s _ hclear, layersAt_of_inv h, objColor_of_inv h]
      congr 1
      simp only [eq_iff_iff]
      refine ⟨fun hshown => hshown.2.2.2, fun hwins => ⟨by omega, by omega, hclear, hwins⟩⟩

end

/-! ## The row -/

theorem findSome?_eq_find?_bind {α β : Type} (f : α → Option β) (l : List α) :
    l.findSome? f = (l.find? fun a => (f a).isSome).bind f := by
  induction l with
  | nil => rfl
  | cons a l ih =>
    rw [List.findSome?_cons, List.find?_cons, ih]
    cases ha : f a with
    | none => rfl
    | some b => exact ha.symm

/-- The picture in closed form: the first selected entry that puts something over the column, else background or window
(R332). -/
theorem picture_eq (s : State) (ly x : Nat) :
    picture s ly x = if objEn s then
        (((List.range 40).filter (entrySelected s ly)).findSome? (entryShown s ly x)).getD (backPixel s ly x).2.2
      else (backPixel s ly x).2.2 := by
  have hshows : entryShows s ly x = fun n => objEn s && (entrySelected s ly n && (entryShown s ly x n).isSome) :=
    funext (entryShows_eq s ly x)
  rw [picture, hshows]
  cases objEn s with
  | false =>
    have hnone : (List.range 40).find? (fun n => false && (entrySelected s ly n && (entryShown s ly x n).isSome)) = none :=
      List.find?_eq_none.2 fun _ _ => Bool.false_ne_true
    rw [hnone]
    rfl
  | true =>
    rw [findSome?_eq_find?_bind, List.find?_filter]
    simp only [Bool.true_and, if_true, Bool.decide_and, Bool.decide_eq_true]
    cases hfind : (List.range 40).find? (fun n => entrySelected s ly n && (entryShown s ly x n).isSome) with
    | none => rfl
    | some n =>
      have hshown := List.find?_some hfind
      obtain ⟨raw, hraw, hcolor⟩ := entryShown_of_isSome (Bool.and_eq_true_iff.1 hshown).2
      rw [Option.bind_some]
      dsimp only
      rw [hraw, hcolor]
      rfl

/-- The composited row is the picture (R310 to R340). -/
theorem rowColor_of_inv {s : State} (h : Inv s) (ly : Byte) (x : Nat) : rowColor s ly x = picture s ly.toNat x := by
  have hback : (layersAt s ly x).color = (backPixel s ly.toNat x).2.2 := by rw [← layersAt_of_inv h]; rfl
  have hsprites : (selectSprites s ly (spriteHeight s)).findSome?
        (fun n => spriteOver s (layersAt s ly x) (spriteAt s n) ly (spriteHeight s) x) =
      ((List.range 40).filter (entrySelected s ly.toNat)).findSome? (entryShown s ly.toNat x) := by
    rw [← selectSprites_map_val h, List.findSome?_map, ← List.head?_filterMap, ← List.head?_filterMap]
    congr 1
    exact List.filterMap_congr fun n hn => spriteOver_of_inv h ly n x (entryCovers_of_mem_select h hn)
  rw [rowColor, picture_eq, hsprites, hback]

/-- Settles O33: the row committed at HBlank entry is the row in closed form. -/
theorem compositedRowIsThePicture : Obligations.CompositedRowIsThePicture := by
  intro s h hentry
  refine ⟨_, exec_step_one_hblank hentry, fun y x => ?_⟩
  rw [framePixel_hblankEntered, rowColor_of_inv h]

end Sys2Proof.Machine
end

section
/-! PROOF. Reset (R60, R410, R411): the table of values, and the invariant in it. -/

namespace Sys2Proof.Machine

open Sys2Proof.Spec

/-! ## Entries of constant tables -/

@[simp] theorem at4_replicate {α : Type} (v : α) (i : BitVec 2) : at4 (Vector.replicate 4 v) i = v := by simp [at4]
@[simp] theorem at8_replicate {α : Type} (v : α) (i : BitVec 3) : at8 (Vector.replicate 8 v) i = v := by simp [at8]
@[simp] theorem at32_replicate {α : Type} (v : α) (i : BitVec 5) : at32 (Vector.replicate 32 v) i = v := by simp [at32]
@[simp] theorem at256_replicate {α : Type} (v : α) (i : Byte) : at256 (Vector.replicate 256 v) i = v := by simp [at256]

theorem framePixel_resetBlock (s : State) (y : Fin 144) (x : Byte) : framePixel (resetBlock s) y x = 0#24 := by
  have hrow : (resetBlock s).frame[y] = Vector.replicate 256 0#24 := Vector.getElem_replicate _
  rw [framePixel, hrow, at256_replicate]

theorem spriteAt_resetBlock (s : State) (n : Fin 40) : spriteAt (resetBlock s) n = ⟨-16, -8, 0#8, 0#8⟩ :=
  Vector.getElem_replicate _

/-- Settles O54: every piece of the state after `RESET` is the table's value. -/
theorem resetGivesTheTableOfValues : Obligations.ResetGivesTheTableOfValues := fun s =>
  ⟨_, rfl,
    ⟨rfl, rfl, rfl, rfl, rfl, rfl, rfl, rfl, rfl, rfl, rfl, rfl, rfl, rfl, rfl, rfl⟩, rfl, ⟨rfl, rfl, rfl⟩,
    ⟨rfl, rfl, rfl⟩, fun _ _ => rfl, fun _ => rfl, fun _ _ _ _ c => at8_replicate 0#2 c, spriteAt_resetBlock s,
    fun i => ⟨at4_replicate 0#2 i, at4_replicate 0#2 i, at4_replicate 0#2 i⟩,
    fun e => ⟨at32_replicate 0#15 e, at32_replicate 0#24 e, at32_replicate 0#15 e, at32_replicate 0#24 e⟩,
    ⟨rfl, rfl, rfl, rfl⟩,
    fun x => ⟨at256_replicate 0#24 x, at256_replicate 0#2 x, at256_replicate false x⟩, framePixel_resetBlock s,
    ⟨rfl, rfl, rfl, rfl, rfl, rfl, rfl, rfl, rfl⟩⟩

/-! ## The invariant after reset -/

theorem palPort_reset_coherent : PalPort.reset.Coherent := fun e =>
  (at32_replicate 0#24 e).trans (congrArg scale15 (at32_replicate 0#15 e)).symm

/-- The state after `RESET` meets the invariant: every table is that of zeros, and so is every source (R411). -/
theorem inv_resetBlock (s : State) : Inv (resetBlock s) where
  position := ⟨Nat.zero_le _, Nat.zero_le _, fun _ => ⟨rfl, rfl, rfl⟩, nofun, nofun, nofun⟩
  coinc := rfl
  tiles := fun _ _ _ _ => show blankRow = decodeRow 0#8 0#8 by decide
  shades :=
    have hzero : Vector.replicate 4 0#2 = shadeTable 0#8 := by decide
    ⟨hzero, hzero, hzero⟩
  bgPal := palPort_reset_coherent
  objPal := palPort_reset_coherent
  sprites := fun n => (spriteAt_resetBlock s n).trans
    (show (⟨-16, -8, 0#8, 0#8⟩ : Sprite) = decodeSprite 0#8 0#8 0#8 0#8 (BitVec.getLsbD 0#8 2) by decide)
  dmaFlag := show BitVec.getLsbD 0xFF#8 7 = true by decide
  stores := reset_stores_wf

/-- Settles O60: the reset state is what `RESET` makes of itself. -/
theorem resetStateMeetsTheInvariant : Obligations.ResetStateMeetsTheInvariant := inv_resetBlock State.reset

end Sys2Proof.Machine
end

section
/-! PROOF. Every step keeps the invariant (R61): each operation touches the sources of a few clauses only, and leaves those
clauses true. -/

namespace Sys2Proof.Machine

open Sys2Proof.Spec

/-! ## One rule for each part of the state -/

theorem PositionOk.congr {s t : State} (h : PositionOk s) (hly : t.ly = s.ly) (hcycle : t.lineCycle = s.lineCycle)
    (hmode : t.mode = s.mode) (hon : t.displayOn = s.displayOn) : PositionOk t := by
  obtain ⟨h1, h2, h3, h4, h5, h6⟩ := h
  rw [← hly] at h1 h3 h4 h5 h6
  rw [← hcycle] at h2 h3 h4 h5 h6
  rw [← hmode] at h3 h4 h5 h6
  rw [← hon] at h3 h6
  exact ⟨h1, h2, h3, h4, h5, h6⟩

theorem Inv.videoOk {s : State} (h : Inv s) : VideoOk s := by
  obtain ⟨hvram, -, htilePx⟩ := h.stores
  exact ⟨hvram, htilePx, h.tiles⟩

theorem Inv.oamOk {s : State} (h : Inv s) : Memory.wf 160 s.oam = true := by
  obtain ⟨-, hoam, -⟩ := h.stores
  exact hoam

section
variable {s t : State} (h : Inv s)
include h

/-- The fields no clause reads (R61). -/
theorem Inv.of_settings
    (ht : t = { s with
      scy := t.scy, scx := t.scx, wy := t.wy, wx := t.wx, vbk := t.vbk, hdma1 := t.hdma1, hdma2 := t.hdma2
      hdma3 := t.hdma3, hdma4 := t.hdma4, stat := { t.stat with coinc := s.stat.coinc }, pending := t.pending
      answer := t.answer, unspecDraws := t.unspecDraws }) : Inv t := by
  rw [ht]
  exact ⟨h.position.congr rfl rfl rfl rfl, h.coinc, h.tiles, h.shades, h.bgPal, h.objPal, h.sprites, h.dmaFlag, h.stores⟩

/-- The position, the comparison and what the ticks put out. -/
theorem Inv.of_position
    (ht : t = { s with
      ly := t.ly, lyc := t.lyc, stat := t.stat, mode := t.mode, lineCycle := t.lineCycle, displayOn := t.displayOn
      ifVblank := t.ifVblank, ifStat := t.ifStat, trace := t.trace, lineColor := t.lineColor, lineRaw := t.lineRaw
      linePrio := t.linePrio, frame := t.frame })
    (hposition : PositionOk t) (hcoinc : t.stat.coinc = (t.ly == t.lyc)) : Inv t := by
  rw [ht]
  exact ⟨hposition.congr rfl rfl rfl rfl, hcoinc, h.tiles, h.shades, h.bgPal, h.objPal, h.sprites, h.dmaFlag, h.stores⟩

/-- The monochrome palettes and their tables (R50). -/
theorem Inv.of_shades
    (ht : t = { s with
      bgp := t.bgp, obp0 := t.obp0, obp1 := t.obp1, bgShade := t.bgShade, objShade0 := t.objShade0
      objShade1 := t.objShade1 })
    (hshades : ShadesCoherent t) : Inv t := by
  rw [ht]
  exact ⟨h.position.congr rfl rfl rfl rfl, h.coinc, h.tiles, hshades, h.bgPal, h.objPal, h.sprites, h.dmaFlag, h.stores⟩

/-- The colour palettes (R52). -/
theorem Inv.of_palettes (ht : t = { s with bgPal := t.bgPal, objPal := t.objPal }) (hbg : t.bgPal.Coherent)
    (hobj : t.objPal.Coherent) : Inv t := by
  rw [ht]
  exact ⟨h.position.congr rfl rfl rfl rfl, h.coinc, h.tiles, h.shades, hbg, hobj, h.sprites, h.dmaFlag, h.stores⟩

/-- The attribute table, its descriptors and the size bit (R54). -/
theorem Inv.of_sprites (ht : t = { s with lcdc := t.lcdc, oam := t.oam, sprites := t.sprites })
    (hsprites : SpritesCoherent t) (hoam : Memory.wf 160 t.oam = true) : Inv t := by
  obtain ⟨hvram, -, htiles⟩ := h.stores
  rw [ht]
  exact ⟨h.position.congr rfl rfl rfl rfl, h.coinc, h.tiles, h.shades, h.bgPal, h.objPal, hsprites, h.dmaFlag,
    hvram, hoam, htiles⟩

/-- Video memory with the tile cache, and the colour-DMA state (R49, R57). -/
theorem Inv.of_memory
    (ht : t = { s with
      vram := t.vram, tilePx := t.tilePx, memReads := t.memReads, hdma5 := t.hdma5, hdmaActive := t.hdmaActive
      hdmaSrc := t.hdmaSrc, hdmaDst := t.hdmaDst })
    (hvideo : VideoOk t) (hflag : t.hdma5.getLsbD 7 = !t.hdmaActive) : Inv t := by
  obtain ⟨hvram, htilePx, htiles⟩ : VideoOk { s with
      vram := t.vram, tilePx := t.tilePx, memReads := t.memReads, hdma5 := t.hdma5, hdmaActive := t.hdmaActive
      hdmaSrc := t.hdmaSrc, hdmaDst := t.hdmaDst } := ht ▸ hvideo
  rw [ht]
  exact ⟨h.position.congr rfl rfl rfl rfl, h.coinc, htiles, h.shades, h.bgPal, h.objPal, h.sprites, hflag,
    hvram, h.oamOk, htilePx⟩

end

theorem zeroExtend_getLsbD_seven (len : BitVec 7) : (len.zeroExtend 8).getLsbD 7 = false := by
  rw [BitVec.getLsbD_setWidth, BitVec.getLsbD_of_ge len 7 (le_refl 7), Bool.and_false]

theorem or_80_getLsbD_seven (v : Byte) : (0x80#8 ||| v).getLsbD 7 = true := by
  rw [BitVec.getLsbD_or]
  rfl

/-! ## Accesses -/

section
variable {s : State} (h : Inv s)
include h

theorem inv_colorWrite {f : State → State} (hf : Inv (f s)) : Inv (colorWrite f s) := by
  unfold colorWrite
  split
  · exact hf
  · exact h

theorem inv_vramWrite (b : Bank) (a : VramOffset) (v : Byte) : Inv (vramWrite b a v s) :=
  h.of_memory (by rw [vramWrite_frame]) (vramWrite_ok b a v s h.videoOk) (by simp only [vramWrite_keeps, h.dmaFlag])

theorem inv_refreshSprites_wrLcdc (v : Byte) : Inv (refreshSprites { s with lcdc := v }) :=
  h.of_sprites rfl (spriteAt_refreshSprites { s with lcdc := v }) h.oamOk

theorem inv_wrOam (i : Fin 160) (v : Byte) : Inv (refreshSprites (oamStore i.val v s)) :=
  h.of_sprites rfl (spriteAt_refreshSprites (oamStore i.val v s)) (oamStore_wf i.val v s i.isLt h.oamOk)

/-- A started transfer shows a count below 128 and is in progress (R57). -/
theorem inv_startHdma (len : BitVec 7) : Inv (startHdma len s) :=
  h.of_memory rfl (h.videoOk.congr rfl rfl rfl) (zeroExtend_getLsbD_seven len)

/-- A cancelled transfer shows bit 7 set and is not in progress (R57). -/
theorem inv_cancelHdma : Inv (cancelHdma s) :=
  h.of_memory rfl (h.videoOk.congr rfl rfl rfl) (or_80_getLsbD_seven _)

/-- A general transfer shows the sentinel, with no transfer in progress before or after it (R57). -/
theorem inv_generalTransfer (hactive : s.hdmaActive = false) (n : Nat) : Inv (generalTransfer n s) := by
  refine h.of_memory (by rw [generalTransfer, copyBlocks_frame]) ?video ?flag
  case video => exact (copyBlocks_ok (dmaSrc s) (dmaDst s) n s h.videoOk).congr rfl rfl rfl
  case flag =>
    simp only [generalTransfer, copyBlocks_keeps, hactive]
    decide

theorem inv_dmaControlWrite (v : Byte) : Inv (dmaControlWrite v s) := by
  unfold dmaControlWrite
  split
  · exact inv_startHdma h _
  · split
    · exact inv_cancelHdma h
    · rename_i hactive
      exact inv_generalTransfer h (Bool.eq_false_of_not_eq_true hactive) _

theorem inv_wrLcdc (v : Byte) : ∃ t, exec (.wrLcdc v) s = .next t ∧ Inv t := by
  by_cases hsize : v.getLsbD 2 = s.lcdc.getLsbD 2
  · refine ⟨_, exec_wrLcdc_of_size_eq hsize, h.of_sprites rfl (fun n => ?_) h.oamOk⟩
    refine (h.sprites n).trans ?_
    unfold spriteOf
    dsimp only
    rw [hsize]
    rfl
  · exact ⟨_, exec_wrLcdc_of_size_ne hsize, inv_refreshSprites_wrLcdc h v⟩

/-- The index 0 is in range in every mode the position before it was (R61). -/
theorem positionOk_wrLy : PositionOk (compared s 0x00#8 s.lyc) := by
  obtain ⟨-, hcycle, hoff, hoam, hxfer, hblank⟩ := h.position
  refine ⟨Nat.zero_le _, hcycle, fun hd => ?off, fun hm => ?oam, fun hm => ?xfer, fun hd hm => ?hblank⟩
  case off =>
    obtain ⟨hmode, -, hzero⟩ := hoff hd
    exact ⟨hmode, rfl, hzero⟩
  case oam =>
    obtain ⟨hlast, -⟩ := hoam hm
    exact ⟨hlast, Nat.zero_le _⟩
  case xfer =>
    obtain ⟨hfirst, hlast, -⟩ := hxfer hm
    exact ⟨hfirst, hlast, Nat.zero_le _⟩
  case hblank =>
    obtain ⟨hfirst, -⟩ := hblank hd hm
    exact ⟨hfirst, Nat.zero_le _⟩

theorem inv_regWrite (r : Reg) (v : Byte) : ∃ t, exec (r.write v) s = .next t ∧ Inv t := by
  obtain ⟨hbgp, hobp0, hobp1⟩ := h.shades
  cases r with
  | lcdc => exact inv_wrLcdc h v
  | stat | scy | scx | wy | wx => exact ⟨_, rfl, h.of_settings rfl⟩
  | ly => exact ⟨_, wrLyClearsTheIndexAndCompares s v, h.of_position rfl (positionOk_wrLy h) rfl⟩
  | lyc =>
    exact ⟨_, wrLycStoresAndCompares s v, h.of_position rfl (h.position.congr rfl rfl rfl rfl) rfl⟩
  | bgp => exact ⟨_, rfl, h.of_shades rfl ⟨rfl, hobp0, hobp1⟩⟩
  | obp0 => exact ⟨_, rfl, h.of_shades rfl ⟨hbgp, rfl, hobp1⟩⟩
  | obp1 => exact ⟨_, rfl, h.of_shades rfl ⟨hbgp, hobp0, rfl⟩⟩
  | vbk | hdma1 | hdma2 | hdma3 | hdma4 => exact ⟨_, rfl, inv_colorWrite h (h.of_settings rfl)⟩
  | hdma5 => exact ⟨_, rfl, inv_colorWrite h (inv_dmaControlWrite h v)⟩
  | bcps => exact ⟨_, rfl, inv_colorWrite h (h.of_palettes rfl h.bgPal h.objPal)⟩
  | ocps => exact ⟨_, rfl, inv_colorWrite h (h.of_palettes rfl h.bgPal h.objPal)⟩
  | bcpd => exact ⟨_, rfl, inv_colorWrite h (h.of_palettes rfl (palDataWrite_coherent v _ h.bgPal) h.objPal)⟩
  | ocpd => exact ⟨_, rfl, inv_colorWrite h (h.of_palettes rfl h.bgPal (palDataWrite_coherent v _ h.objPal))⟩

theorem OnlyAnswers.inv {t : State} (ht : OnlyAnswers s t) : Inv t :=
  h.of_settings (by rw [ht.eq])

end

/-! ## Ticks -/

section
variable {s : State} (h : Inv s)
include h

/-- The block of an HBlank entry keeps the cache coherent and the in-progress bit true (R57, R356). -/
theorem inv_hblankDma : Inv (hblankDma s) := by
  by_cases hactive : s.cfg.colorMode = true ∧ s.hdmaActive = true
  case neg =>
    rw [hblankDma_idle (by simpa only [not_and_or, Bool.not_eq_true] using hactive)]
    exact h
  case pos =>
    refine h.of_memory (hblankDma_frame s) (hblankDma_ok s h.videoOk) ?_
    rw [hblankDma_active hactive.1 hactive.2, hdmaBlock_frame]
    dsimp only
    split
    · decide
    · rw [zeroExtend_getLsbD_seven, hactive.2]
      rfl

/-- Inside a mode the count stays within the mode's cycles (R61). -/
theorem positionOk_interior (hd : s.displayOn = true) (hin : boundaryTick s.mode s.lineCycle = false) :
    PositionOk { s with lineCycle := s.lineCycle + 1 } := by
  obtain ⟨hly, hcycle, -, hoam, hxfer, hblank⟩ := h.position
  refine ⟨hly, ?cycle, fun hoff => absurd hoff (by simp [hd]), fun hm => ?oam, fun hm => ?xfer, fun _ hm => ?hblank⟩
  case cycle =>
    dsimp only
    rcases mode_cases s.mode with hm | hm | hm | hm
    · have hplace := hoam hm; omega
    · have hplace := hxfer hm; omega
    · rw [hm] at hin; have hne := ne_of_beq_false hin; omega
    · rw [hm] at hin; have hne := ne_of_beq_false hin; omega
  case oam =>
    dsimp only at hm ⊢
    have hplace := hoam hm
    rw [hm] at hin; have hne := ne_of_beq_false hin; omega
  case xfer =>
    dsimp only at hm ⊢
    have hplace := hxfer hm
    rw [hm] at hin; have hne := ne_of_beq_false hin; omega
  case hblank =>
    dsimp only at hm ⊢
    have hplace := hblank hd hm
    omega

/-! The outcomes of a boundary tick lie where the timing table puts them (R61). -/

theorem inv_enterXfer (hm : s.mode = .oam) (hd : s.displayOn = true) : Inv { s with lineCycle := 80, mode := .xfer } := by
  have hplace := h.position.oamPlace hm
  refine h.of_position rfl ⟨h.position.lyRange, ?_, fun hoff => absurd hoff (by simp [hd]), nofun, fun _ => ?_, nofun⟩
    h.coinc
  · dsimp only; omega
  · dsimp only; omega

theorem inv_hblankEntered (hm : s.mode = .xfer) (hd : s.displayOn = true) : Inv (hblankEntered s) := by
  have hplace := h.position.xferPlace hm
  have hentered : Inv { s with mode := .hblank, lineCycle := 252 } := by
    refine h.of_position rfl ⟨h.position.lyRange, ?_, fun hoff => absurd hoff (by simp [hd]), nofun, nofun, fun _ _ => ?_⟩
      h.coinc
    · dsimp only; omega
    · dsimp only; omega
  have hrow : Inv (renderLine s.ly { s with mode := .hblank, lineCycle := 252 }) :=
    hentered.of_position (by rw [renderLine_frame])
      (hentered.position.congr (by simp) (by simp) (by simp) (by simp)) (by simpa using h.coinc)
  have hblock := inv_hblankDma hrow
  exact hblock.of_position rfl (hblock.position.congr rfl rfl rfl rfl) hblock.coinc

theorem inv_lineStarted {ly : Byte} (hly : ly.toNat ≤ 143) (hd : s.displayOn = true) : Inv (lineStarted ly s) := by
  refine h.of_position rfl ⟨?_, Nat.zero_le _, fun hoff => absurd hoff ?_, fun _ => ⟨Nat.zero_le _, hly⟩, nofun, nofun⟩ rfl
  · show ly.toNat ≤ 153; omega
  · show ¬ s.displayOn = false; simp [hd]

theorem inv_vblankEntered (hd : s.displayOn = true) : Inv (vblankEntered s) := by
  refine h.of_position rfl ⟨?_, Nat.zero_le _, fun hoff => absurd hoff ?_, nofun, nofun, nofun⟩ rfl
  · show (144#8).toNat ≤ 153; decide
  · show ¬ s.displayOn = false; simp [hd]

theorem inv_vblankLineStarted (hm : s.mode = .vblank) (hly : s.ly + 1#8 ≠ 154#8) (hd : s.displayOn = true) :
    Inv (vblankLineStarted s) := by
  have hmode : (vblankLineStarted s).mode = .vblank := hm
  have hrange := h.position.lyRange
  refine h.of_position rfl ⟨?_, Nat.zero_le _, fun hoff => absurd hoff ?_, ?_, ?_, ?_⟩ rfl
  · show (s.ly + 1#8).toNat ≤ 153; bv_omega
  · show ¬ s.displayOn = false; simp [hd]
  · rw [hmode]; nofun
  · rw [hmode]; nofun
  · rw [hmode]; nofun

/-- A tick with the display on keeps the invariant (R161, R168). -/
theorem inv_tick (hd : s.displayOn = true) : Inv (tick s) := by
  have hrange := h.position.lyRange
  generalize hu : tick s = u
  cases (hu ▸ tickTo_tick s : TickTo s u) with
  | interior hin => exact h.of_position rfl (positionOk_interior h hd hin) h.coinc
  | enterXfer hm hc => exact inv_enterXfer h hm hd
  | enterHblank hm hc => exact inv_hblankEntered h hm hd
  | nextLine hm hc hly =>
    obtain ⟨-, hvisible⟩ := h.position.hblankPlace hd hm
    exact inv_lineStarted h (by bv_omega) hd
  | enterVblank hm hc hly => exact inv_vblankEntered h hd
  | nextVblankLine hm hc hly => exact inv_vblankLineStarted h hm hly hd
  | nextFrame hm hc hly => exact inv_lineStarted h (Nat.zero_le _) hd

theorem inv_sampleDisplay : Inv (sampleDisplay s) := by
  generalize hu : sampleDisplay s = u
  cases (hu ▸ sampleTo_sampleDisplay s : SampleTo s u) with
  | enable hd hreq =>
    obtain ⟨-, hly, -⟩ := h.position.offIdle hd
    refine h.of_position rfl ⟨h.position.lyRange, Nat.zero_le _, nofun, fun _ => ⟨Nat.zero_le _, ?_⟩, nofun, nofun⟩ h.coinc
    show s.ly.toNat ≤ 143
    rw [hly]
    decide
  | disable hd hm hreq =>
    exact h.of_position rfl ⟨Nat.zero_le _, Nat.zero_le _, fun _ => ⟨rfl, rfl, rfl⟩, nofun, nofun, nofun⟩ rfl
  | idle | run => exact h

end

theorem inv_ticks {s : State} (h : Inv s) (hd : s.displayOn = true) (n : Nat) : Inv (ticks n s) := by
  induction n with
  | zero => exact h
  | succ n ih => rw [ticks_succ]; exact inv_tick ih ((ticks_displayOn n s).trans hd)

theorem inv_runTicks {s : State} (h : Inv s) (n : Nat) : Inv (runTicks n s) := by
  cases hd : s.displayOn with
  | false => rw [runTicks_off n hd]; exact h
  | true => rw [runTicks_on n hd]; exact inv_ticks h hd n

/-! ## Every operation -/

/-- Whatever answers a next state keeps the invariant (R61). -/
theorem inv_exec {i : Instr} {s t : State} (h : Inv s) (hexec : exec i s = .next t) : Inv t := by
  cases i.format with
  | reset => cases hexec; exact inv_resetBlock s
  | step n => rw [exec_step_next hexec]; exact inv_runTicks (inv_sampleDisplay h) _
  | regWrite r v =>
    obtain ⟨u, hexec', hu⟩ := inv_regWrite h r v
    cases hexec'.symm.trans hexec
    exact hu
  | regRead r =>
    obtain ⟨u, hexec', hu⟩ := exec_regRead r s
    cases hexec'.symm.trans hexec
    exact hu.inv h
  | vramWrite off v => cases hexec; exact inv_vramWrite h _ off v
  | oamWrite i v => cases hexec; exact inv_wrOam h i v
  | vramRead | oamRead | unmappedRead => cases hexec; exact h.of_settings rfl
  | unmappedWrite => cases hexec; exact h

/-- Settles O59: a step changes nothing, or takes a word and runs its operation. -/
theorem everyStepKeepsTheInvariant : Obligations.EveryStepKeepsTheInvariant := by
  intro s t h hstep
  rcases step_next_cases hstep with rfl | ⟨i, rest, hexec⟩
  · exact h
  · exact inv_exec (h.of_settings (t := { s with pending := rest }) rfl) hexec

end Sys2Proof.Machine
end
